-- ==== Sys2Proof/Word.lean ====
section
/-! DEFINITION. The words of the hardware and the two kinds of word it decodes (R4, R5, R55, R64). -/

namespace Sys2Proof

/-- A datapath word, 32 bits, unsigned (R4 `WORD`, R6(c)). -/
abbrev Word := BitVec 32

/-- A byte: a message byte, a byte of the block buffer, a digest byte, a response (R4, R5 `RSPW`). -/
abbrev Byte := BitVec 8

/-- A host command word, 10 bits (R5 `CMDW`, R55). -/
abbrev CommandWord := BitVec 10

/-- What the hardware decodes: a command word the host presents (R55), or the sequencer state
`{PH, RC}` that selects the core's next micro-step (R64). -/
inductive CodeWord where
  | command (cmd : CommandWord)
  | sequencer (ph : BitVec 3) (rc : BitVec 7)
deriving DecidableEq, Repr

end Sys2Proof
end

