-- ==== Sys2Proof/Config.lean ====
section
/-! DEFINITION. The free values: what the spec leaves unspecified and the machine goes on with. Each is
an opaque constant applied to the number of the draw (`State.draws`), so nothing in Lean can evaluate it
or prove a value of it. The fixed tables `RT` and `IV` are in Machine/RoundTable.lean. -/

namespace Sys2Proof

/-- The response of a `READ` that faults or is accepted while `ERR = 1`: any byte, a fresh one for each
(R62, R168, R176, R177; U3). Log entry 6. -/
opaque Config.freeResponse : Nat → Byte

/-- What a word register holds after a reset event, by draw and register number: `H[0..3]` are 0 to 3,
`a`, `b`, `c`, `d` are 4 to 7 (R188; U2). Log entry 5. -/
opaque Config.freeWord : Nat → Nat → Word

/-- What a byte of the block buffer holds after a reset event, by draw and address (R188; U2). Log
entry 5. -/
opaque Config.freeByte : Nat → Nat → Byte

/-- What `LEN` holds after a reset event, by draw (R188; U2). Log entry 5. -/
opaque Config.freeLen : Nat → BitVec 61

end Sys2Proof
end

