-- ==== Sys2Proof/Machine/State.lean ====
section
/-! DEFINITION. The state: every register the spec names (R20 to R28), the block buffer, and three
fields of the model's own (what the host is going to do, the responses it was given, the count of free
values drawn). Plain data. -/

namespace Sys2Proof.Machine

/-- The phases of the register `PH`, in the order of their numbers 0 to 7 (R27). -/
inductive Phase where
  | idle | absorb | pad1 | pad2 | compD | compP1 | compP2 | done
deriving DecidableEq, Repr

/-- The digest state `H[0..3]` (R20). -/
structure DigestState where
  h0 : Word
  h1 : Word
  h2 : Word
  h3 : Word
deriving DecidableEq, Repr

/-- The working registers `(a, b, c, d)` (R21). -/
structure Working where
  a : Word
  b : Word
  c : Word
  d : Word
deriving DecidableEq, Repr

/-- The block buffer `B` (R22): the bytes that are not zero, by rising address. An address that is not
listed reads as `unwrittenByte`. -/
abbrev Memory := List Host.Cell

/-- What the host does next at the port (R33, R163, R185). The model's own: the spec has the host as an
agent outside the core. Log entry 1. -/
inductive HostEvent where
  /-- Present a command word; it waits while the core is busy (R154). -/
  | command (cmd : CommandWord)
  /-- Present nothing for one step of the core (R185: "wait any length of time"). -/
  | wait
  /-- Request a reset (R187). -/
  | reset
deriving DecidableEq, Repr

/-- The state of the machine. -/
structure State where
  /-- `H`, the digest state (R20). -/
  H : DigestState
  /-- `a`, `b`, `c`, `d`, the working registers (R21). -/
  w : Working
  /-- `B`, the block buffer (R22). -/
  B : Memory
  /-- `LEN`, the message byte counter (R24). -/
  len : BitVec 61
  /-- `PH`, the phase register (R27). -/
  ph : Phase
  /-- `RC`, the round counter (R28). -/
  rc : BitVec 7
  /-- `ERR`, the sticky fault flag (R26). -/
  err : Bool
  /-- `ECODE`, the cause of the first fault (R26). -/
  ecode : BitVec 3
  /-- The model's own: the host's coming events, first first (log entry 1). -/
  host : List HostEvent
  /-- The model's own: the responses delivered so far, oldest first (R33 port `rsp`; log entry 2). -/
  rsp : List Byte
  /-- The model's own: how many times free values have been drawn (log entry 6). -/
  draws : Nat
deriving DecidableEq, Repr

/-- Reasons for the machine to stop with a fault: there are none. A fault of this hardware is recorded
in `ERR` and `ECODE` and the machine goes on (R176), no micro-step faults (R180), and no access outside a
space can be expressed (R47). Nobody raises one, and the type has no constructor (log entry 10). -/
inductive Fault where
deriving DecidableEq, Repr

/-- Reasons for the model to refuse a step. -/
inductive Refusal where
  /-- Raised by `exec` for an instruction that has no meaning yet; safe (the model stops). -/
  | notModelled (mnemonic : String)
  /-- Raised by `step` in a sequencer state `{PH, RC}` to which R65 gives "no micro-step and no meaning;
  a model refuses it"; safe (no run from reset gets there). Log entry 7. -/
  | unreachableState
  /-- Raised by the meaning of a micro-step in a state whose `{PH, RC}` does not select it: R64 and R159
  give it no transition there; safe (`step` never asks for it). Log entry 8. -/
  | microStepNotSelected
deriving DecidableEq, Repr

/-- The machine right after reset (R188): `PH`, `RC`, `ERR`, `ECODE` are the spec's 0. `H`, `a` to `d`
and `LEN` are unspecified there; the model names zero (DESIGN CHOICE, unsafe, log entry 3), and every
byte of `B` reads as `unwrittenByte` (DESIGN CHOICE, unsafe, log entry 4). -/
def State.reset : State where
  H := ⟨0, 0, 0, 0⟩
  w := ⟨0, 0, 0, 0⟩
  B := []
  len := 0
  ph := .idle
  rc := 0
  err := false
  ecode := 0
  host := []
  rsp := []
  draws := 0

end Sys2Proof.Machine
end

