-- ==== Sys2Proof/Machine/Flags.lean ====
section
/-! DEFINITION. The views of the state that have no storage of their own: the number of the phase, the
status flags, `FILL`, `BITLEN`, the `STATUS` byte (R25, R27, R29, R32). There are no condition codes
(R29). -/

namespace Sys2Proof.Machine

/-- The number of a phase: the 3 bits of `PH` (R27). -/
def phaseCode : Phase → BitVec 3
  | .idle => 0#3
  | .absorb => 1#3
  | .pad1 => 2#3
  | .pad2 => 3#3
  | .compD => 4#3
  | .compP1 => 5#3
  | .compP2 => 6#3
  | .done => 7#3

/-- The phase of a number (R27: all eight values are used). -/
def phaseOfCode (n : BitVec 3) : Phase :=
  if n = 0#3 then .idle
  else if n = 1#3 then .absorb
  else if n = 2#3 then .pad1
  else if n = 3#3 then .pad2
  else if n = 4#3 then .compD
  else if n = 5#3 then .compP1
  else if n = 6#3 then .compP2
  else .done

/-- The compression phases `COMP_D`, `COMP_P1`, `COMP_P2` (R28, R64). -/
def compressing : Phase → Bool
  | .compD | .compP1 | .compP2 => true
  | .idle | .absorb | .pad1 | .pad2 | .done => false

/-- `BUSY` (R27, R29). -/
def busyPhase : Phase → Bool
  | .pad1 | .pad2 | .compD | .compP1 | .compP2 => true
  | .idle | .absorb | .done => false

/-- `BUSY` of a state (R29). -/
def State.busy (s : State) : Bool := busyPhase s.ph

/-- `READY = 1 - BUSY`, the `ready` port (R29, R33). -/
def State.ready (s : State) : Bool := !s.busy

/-- `DV`, digest valid (R29). -/
def State.dv (s : State) : Bool := decide (s.ph = .done)

/-- `FILL = LEN[5:0]` (R25). -/
def State.fill (s : State) : BitVec 6 := s.len.extractLsb' 0 6

/-- `BITLEN = {LEN, 0b000}` (R25). -/
def State.bitlen (s : State) : BitVec 64 := s.len ++ 0#3

/-- `STATUS = {ERR, ECODE, DV, PH}` (R32). -/
def State.statusByte (s : State) : Byte :=
  BitVec.ofBool s.err ++ s.ecode ++ BitVec.ofBool s.dv ++ phaseCode s.ph

end Sys2Proof.Machine
end

