-- ==== Sys2Proof/Machine/Operands.lean ====
section
/-! DEFINITION. The arithmetic primitives of the datapath and the conversions between words and bytes
(R8 to R17). -/

namespace Sys2Proof.Machine

/-- `add32` of two words: the sum modulo 2^32, silently (R8). -/
def add32 (x y : Word) : Word := x + y

/-- `add32` of four words: the sum reduced once (R8). -/
def add32x4 (w x y z : Word) : Word := BitVec.ofNat 32 (w.toNat + x.toNat + y.toNat + z.toNat)

/-- `rotl32`: rotate left by `n` modulo 32 (R9, D17). -/
def rotl32 (x : Word) (n : Nat) : Word :=
  let e := n % 32
  if e = 0 then x else (x <<< e) ||| (x >>> (32 - e))

/-- `F(b, c, d)` (R11). -/
def mixF (b c d : Word) : Word := (b &&& c) ||| (~~~b &&& d)

/-- `G(b, c, d)` (R12). -/
def mixG (b c d : Word) : Word := (b &&& d) ||| (c &&& ~~~d)

/-- `H(b, c, d)`, the function, not the register (R13). -/
def mixH (b c d : Word) : Word := b ^^^ c ^^^ d

/-- `I(b, c, d)` (R14). -/
def mixI (b c d : Word) : Word := c ^^^ (b ||| ~~~d)

/-- The four-way selector of the nonlinear function (R15). -/
inductive MixFn where
  | F | G | H | I
deriving DecidableEq, Repr

/-- The 2-bit selector value: 0 = F, 1 = G, 2 = H, 3 = I (R15). -/
def mixCode : MixFn → BitVec 2
  | .F => 0#2
  | .G => 1#2
  | .H => 2#2
  | .I => 3#2

/-- The selected function of the working registers `b`, `c`, `d` (R15). -/
def mix (fn : MixFn) (b c d : Word) : Word :=
  match fn with
  | .F => mixF b c d
  | .G => mixG b c d
  | .H => mixH b c d
  | .I => mixI b c d

/-- `NL(r, b, c, d)`: the function selected by the range of the round index (R15). -/
def nonlinear (r : Nat) (b c d : Word) : Word :=
  if r < 16 then mixF b c d
  else if r < 32 then mixG b c d
  else if r < 48 then mixH b c d
  else mixI b c d

/-- `g(r)`: which block word round `r` consumes (R16). -/
def wordIndex (r : Nat) : Nat :=
  if r < 16 then r
  else if r < 32 then (5 * r + 1) % 16
  else if r < 48 then (3 * r + 5) % 16
  else (7 * r) % 16

/-- `le32`: four bytes as a word, the first least significant (R17). -/
def le32 (b0 b1 b2 b3 : Byte) : Word := b3 ++ b2 ++ b1 ++ b0

/-- Byte `n` of a word, from the least significant: bits `8n + 7 : 8n`. -/
def byteOf {k : Nat} (v : BitVec k) (n : Nat) : Byte := v.extractLsb' (8 * n) 8

/-- `bytes32`: a word as four bytes, the least significant first (R17). -/
def bytes32 (v : Word) : List Byte := [byteOf v 0, byteOf v 1, byteOf v 2, byteOf v 3]

/-- `bytes64`: a 64-bit number as eight bytes, the least significant first (R17). -/
def bytes64 (v : BitVec 64) : List Byte :=
  [byteOf v 0, byteOf v 1, byteOf v 2, byteOf v 3, byteOf v 4, byteOf v 5, byteOf v 6, byteOf v 7]

end Sys2Proof.Machine
end

