-- ==== Sys2Proof/Machine/RoundTable.lean ====
section
/-! DEFINITION. The read-only tables: the round table `RT` (R30, R63, R70 to R133) and the four initial
values `IV` (R31). No rule writes them and reset does not change them, so they are no state (log entry
17). -/

namespace Sys2Proof.Machine

/-- One entry of the round table: the selector, the word index, the rotate amount, the additive
constant (R30, R63). -/
structure RoundEntry where
  fn : MixFn
  g : BitVec 4
  s : BitVec 5
  k : Word
deriving DecidableEq, Repr

/-- The packed 43-bit word, `fn` in bits 42:41, `g` in 40:37, `s` in 36:32, `k` in 31:0 (R63). -/
def packEntry (e : RoundEntry) : BitVec 43 := mixCode e.fn ++ e.g ++ e.s ++ e.k

/-- Entries 0 to 15 (rules R70 to R85). -/
def table0 : List RoundEntry :=
  [⟨.F, 0#4, 7#5, 0xD76AA478#32⟩,
   ⟨.F, 1#4, 12#5, 0xE8C7B756#32⟩,
   ⟨.F, 2#4, 17#5, 0x242070DB#32⟩,
   ⟨.F, 3#4, 22#5, 0xC1BDCEEE#32⟩,
   ⟨.F, 4#4, 7#5, 0xF57C0FAF#32⟩,
   ⟨.F, 5#4, 12#5, 0x4787C62A#32⟩,
   ⟨.F, 6#4, 17#5, 0xA8304613#32⟩,
   ⟨.F, 7#4, 22#5, 0xFD469501#32⟩,
   ⟨.F, 8#4, 7#5, 0x698098D8#32⟩,
   ⟨.F, 9#4, 12#5, 0x8B44F7AF#32⟩,
   ⟨.F, 10#4, 17#5, 0xFFFF5BB1#32⟩,
   ⟨.F, 11#4, 22#5, 0x895CD7BE#32⟩,
   ⟨.F, 12#4, 7#5, 0x6B901122#32⟩,
   ⟨.F, 13#4, 12#5, 0xFD987193#32⟩,
   ⟨.F, 14#4, 17#5, 0xA679438E#32⟩,
   ⟨.F, 15#4, 22#5, 0x49B40821#32⟩]

/-- Entries 16 to 31 (rules R86 to R101). -/
def table16 : List RoundEntry :=
  [⟨.G, 1#4, 5#5, 0xF61E2562#32⟩,
   ⟨.G, 6#4, 9#5, 0xC040B340#32⟩,
   ⟨.G, 11#4, 14#5, 0x265E5A51#32⟩,
   ⟨.G, 0#4, 20#5, 0xE9B6C7AA#32⟩,
   ⟨.G, 5#4, 5#5, 0xD62F105D#32⟩,
   ⟨.G, 10#4, 9#5, 0x02441453#32⟩,
   ⟨.G, 15#4, 14#5, 0xD8A1E681#32⟩,
   ⟨.G, 4#4, 20#5, 0xE7D3FBC8#32⟩,
   ⟨.G, 9#4, 5#5, 0x21E1CDE6#32⟩,
   ⟨.G, 14#4, 9#5, 0xC33707D6#32⟩,
   ⟨.G, 3#4, 14#5, 0xF4D50D87#32⟩,
   ⟨.G, 8#4, 20#5, 0x455A14ED#32⟩,
   ⟨.G, 13#4, 5#5, 0xA9E3E905#32⟩,
   ⟨.G, 2#4, 9#5, 0xFCEFA3F8#32⟩,
   ⟨.G, 7#4, 14#5, 0x676F02D9#32⟩,
   ⟨.G, 12#4, 20#5, 0x8D2A4C8A#32⟩]

/-- Entries 32 to 47 (rules R102 to R117). -/
def table32 : List RoundEntry :=
  [⟨.H, 5#4, 4#5, 0xFFFA3942#32⟩,
   ⟨.H, 8#4, 11#5, 0x8771F681#32⟩,
   ⟨.H, 11#4, 16#5, 0x6D9D6122#32⟩,
   ⟨.H, 14#4, 23#5, 0xFDE5380C#32⟩,
   ⟨.H, 1#4, 4#5, 0xA4BEEA44#32⟩,
   ⟨.H, 4#4, 11#5, 0x4BDECFA9#32⟩,
   ⟨.H, 7#4, 16#5, 0xF6BB4B60#32⟩,
   ⟨.H, 10#4, 23#5, 0xBEBFBC70#32⟩,
   ⟨.H, 13#4, 4#5, 0x289B7EC6#32⟩,
   ⟨.H, 0#4, 11#5, 0xEAA127FA#32⟩,
   ⟨.H, 3#4, 16#5, 0xD4EF3085#32⟩,
   ⟨.H, 6#4, 23#5, 0x04881D05#32⟩,
   ⟨.H, 9#4, 4#5, 0xD9D4D039#32⟩,
   ⟨.H, 12#4, 11#5, 0xE6DB99E5#32⟩,
   ⟨.H, 15#4, 16#5, 0x1FA27CF8#32⟩,
   ⟨.H, 2#4, 23#5, 0xC4AC5665#32⟩]

/-- Entries 48 to 63 (rules R118 to R133). -/
def table48 : List RoundEntry :=
  [⟨.I, 0#4, 6#5, 0xF4292244#32⟩,
   ⟨.I, 7#4, 10#5, 0x432AFF97#32⟩,
   ⟨.I, 14#4, 15#5, 0xAB9423A7#32⟩,
   ⟨.I, 5#4, 21#5, 0xFC93A039#32⟩,
   ⟨.I, 12#4, 6#5, 0x655B59C3#32⟩,
   ⟨.I, 3#4, 10#5, 0x8F0CCC92#32⟩,
   ⟨.I, 10#4, 15#5, 0xFFEFF47D#32⟩,
   ⟨.I, 1#4, 21#5, 0x85845DD1#32⟩,
   ⟨.I, 8#4, 6#5, 0x6FA87E4F#32⟩,
   ⟨.I, 15#4, 10#5, 0xFE2CE6E0#32⟩,
   ⟨.I, 6#4, 15#5, 0xA3014314#32⟩,
   ⟨.I, 13#4, 21#5, 0x4E0811A1#32⟩,
   ⟨.I, 4#4, 6#5, 0xF7537E82#32⟩,
   ⟨.I, 11#4, 10#5, 0xBD3AF235#32⟩,
   ⟨.I, 2#4, 15#5, 0x2AD7D2BB#32⟩,
   ⟨.I, 9#4, 21#5, 0xEB86D391#32⟩]

/-- `RT[0]` to `RT[63]` (R30). The values of `s` and `k` are the spec's, from general knowledge (log entry
15). -/
def roundTable : List RoundEntry := table0 ++ table16 ++ table32 ++ table48

/-- `RT[r]`, read at the address `r = RC` below 64 (R43; log entry 16). -/
def RT (r : Nat) : RoundEntry := roundTable.getD r ⟨.F, 0#4, 0#5, 0#32⟩

/-- `IV[0..3]` (R31). -/
def IV : DigestState := ⟨0x67452301#32, 0xEFCDAB89#32, 0x98BADCFE#32, 0x10325476#32⟩

end Sys2Proof.Machine
end

