-- ==== Sys2Proof/Machine/Ops.lean ====
section
/-! DEFINITION. The named operations over the block buffer and the registers, and what every meaning is
made of: accepting a command, taking a fault, answering, loading the working registers, selecting a
micro-step, the reset event. -/

namespace Sys2Proof.Machine

/-! ## The block buffer (R22, R40, R41) -/

/-- The size of the block buffer (R4 `BLOCKBYTES`). -/
def bufferBytes : Nat := 64

/-- What a byte of the buffer that nothing has written reads as (DESIGN CHOICE, unsafe, log entry 4). -/
def unwrittenByte : Byte := 0#8

/-- Read the byte at an address; addresses above 63 are never formed (R47; log entry 16). -/
def Memory.read : Memory → Nat → Byte
  | [], _ => unwrittenByte
  | e :: m, a => if e.1 = a then e.2 else Memory.read m a

/-- Put a byte in front of a memory that lists no smaller address, unless it is what an unlisted address
reads as. -/
def Memory.cons (a : Nat) (b : Byte) (m : Memory) : Memory :=
  if b = unwrittenByte then m else (a, b) :: m

/-- Write the byte at an address, keeping the canonical form. -/
def Memory.write : Memory → Nat → Byte → Memory
  | [], a, b => Memory.cons a b []
  | e :: m, a, b =>
    if e.1 < a then e :: Memory.write m a b
    else if e.1 = a then Memory.cons a b m
    else Memory.cons a b (e :: m)

/-- The buffer whose byte `j` is `f j`, for the addresses `a` to `a + n - 1`. -/
def Memory.ofFnFrom (f : Nat → Byte) (a : Nat) : Nat → Memory
  | 0 => []
  | n + 1 => Memory.cons a (f a) (Memory.ofFnFrom f (a + 1) n)

/-- Rewrite the whole buffer in one step: byte `j` is `f j` (R48: the formatter rewrites up to 64 bytes
atomically). -/
def Memory.ofFn (f : Nat → Byte) : Memory := Memory.ofFnFrom f 0 bufferBytes

/-- The canonical form: addresses strictly rising and inside the buffer, no byte listed that an unlisted
address reads as. -/
abbrev Memory.wf (m : Memory) : Prop :=
  m.Pairwise (fun x y => x.1 < y.1) ∧ ∀ e ∈ m, e.2 ≠ unwrittenByte ∧ e.1 < bufferBytes

/-- `M[i] = MemRead(4i, 4)`: a block word, little-endian (R23, R44, R7(b)). -/
def Memory.word (m : Memory) (i : BitVec 4) : Word :=
  le32 (m.read (4 * i.toNat)) (m.read (4 * i.toNat + 1)) (m.read (4 * i.toNat + 2))
    (m.read (4 * i.toNat + 3))

/-- The 64 bytes of the buffer in address order. -/
def Memory.bytes (m : Memory) : List Byte := (List.range bufferBytes).map m.read

/-! ## Responses (R33, R62) -/

/-- Deliver a response byte. -/
def State.respond (s : State) (b : Byte) : State := { s with rsp := s.rsp ++ [b] }

/-- Deliver an unspecified response byte: a free value, drawn afresh (R176, R177; log entry 6). -/
def State.respondFree (s : State) : State :=
  { s with rsp := s.rsp ++ [Config.freeResponse s.draws], draws := s.draws + 1 }

/-! ## Taking a fault (R172, R176) -/

/-- The causes of a fault (R172). -/
inductive Cause where
  | illegalCommand | phaseViolation | lengthOverflow
deriving DecidableEq, Repr

/-- The code of a cause in `ECODE` (R172). -/
def causeCode : Cause → BitVec 3
  | .illegalCommand => 1#3
  | .phaseViolation => 2#3
  | .lengthOverflow => 3#3

/-- Fault entry: `ERR <- 1`, `ECODE <- code`, "exactly this and nothing else" (R176). There is no return
from a fault; only reset clears the record (R179). -/
def State.raise (s : State) (c : Cause) : State := { s with err := true, ecode := causeCode c }

/-- An accepted reserved word: `IllegalCommand`, unless the core is frozen (R154(1)(2), R173, R177). -/
def State.illegalCommand (s : State) : State := if s.err then s else s.raise .illegalCommand

/-! ## Commands and micro-steps -/

/-- A command transaction (R154): while `BUSY = 1` the command "waits, unchanged and without effect";
otherwise it takes effect at once. Log entry 9. -/
def command (s : State) (effect : State → State) : Host.Outcome State Fault Refusal :=
  if s.busy then .next s else .next (effect s)

/-- A micro-step (R163(a)): it happens in the states that select it, and there is no transition in the
others (R64, R159). -/
def microStep (selected : Bool) (t : State) : Host.Outcome State Fault Refusal :=
  if selected then .next t else .refused .microStepNotSelected

/-- The load action: `(a, b, c, d) <- H`, `RC <- 0` (R144). -/
def State.load (s : State) : State :=
  { s with w := ⟨s.H.h0, s.H.h1, s.H.h2, s.H.h3⟩, rc := 0 }

/-! ## Reset (R187, R188) -/

/-- The reset event: `PH`, `RC`, `ERR`, `ECODE` go to 0; `H`, `a` to `d`, `B` and `LEN` are unspecified,
"possibly different after each reset": free values of a fresh draw (R188; log entry 5). -/
def State.resetEvent (s : State) : State :=
  { s with
    H := ⟨Config.freeWord s.draws 0, Config.freeWord s.draws 1, Config.freeWord s.draws 2,
      Config.freeWord s.draws 3⟩
    w := ⟨Config.freeWord s.draws 4, Config.freeWord s.draws 5, Config.freeWord s.draws 6,
      Config.freeWord s.draws 7⟩
    B := Memory.ofFn (Config.freeByte s.draws)
    len := Config.freeLen s.draws
    ph := .idle
    rc := 0
    err := false
    ecode := 0
    draws := s.draws + 1 }

end Sys2Proof.Machine
end

