-- ==== Sys2Proof/Machine/Compressor.lean ====
section
/-! DEFINITION. The block compressor: the round datapath (R145), the 64 round micro-steps (R70 to R133),
the accumulate micro-step with its branch (R146, R160), and the function `Compress` that a compression
computes (R147). -/

namespace Sys2Proof.Machine

/-! ## The datapath -/

/-- One round on the working registers, with the table entry `e` and the block word `m`:
`t = a + f + m + k`, then `[d, b + rotl(t, s), b, c]` (R145). -/
def roundWords (e : RoundEntry) (m : Word) (w : Working) : Working :=
  let t := add32x4 w.a (mix e.fn w.b w.c w.d) m e.k
  ⟨w.d, add32 w.b (rotl32 t e.s.toNat), w.b, w.c⟩

/-- `H[i] <- add32(H[i], ...)` for the four words (R146). -/
def accumulate (h : DigestState) (w : Working) : DigestState :=
  ⟨add32 h.h0 w.a, add32 h.h1 w.b, add32 h.h2 w.c, add32 h.h3 w.d⟩

/-- `NextPhase(PH, FILL)`, the branch that `ACC` takes (R160). In a phase that is no compression phase
`ACC` is not selected and nothing is branched. -/
def nextPhase (ph : Phase) (fill : BitVec 6) : Phase :=
  match ph with
  | .compD => .absorb
  | .compP1 => if fill.toNat ≤ 55 then .done else .pad2
  | .compP2 => .done
  | .idle | .absorb | .pad1 | .pad2 | .done => ph

/-! ## The function -/

/-- Word `i` of a block given as a list of bytes (R136, R147). -/
def blockWord (blk : List Byte) (i : BitVec 4) : Word :=
  le32 (blk.getD (4 * i.toNat) 0) (blk.getD (4 * i.toNat + 1) 0) (blk.getD (4 * i.toNat + 2) 0)
    (blk.getD (4 * i.toNat + 3) 0)

/-- The working registers after the first `n` rounds over a block (R147). -/
def roundsOf (blk : List Byte) (w : Working) : Nat → Working
  | 0 => w
  | n + 1 => roundWords (RT n) (blockWord blk (RT n).g) (roundsOf blk w n)

/-- `Compress(S, blk)` (R147). -/
def compress (h : DigestState) (blk : List Byte) : DigestState :=
  accumulate h (roundsOf blk ⟨h.h0, h.h1, h.h2, h.h3⟩ 64)

/-! ## The micro-steps -/

/-- The round micro-step `r`, selected by a compression phase and `RC = r` (R145, R64). -/
def roundStep (r : Nat) (s : State) : Host.Outcome State Fault Refusal :=
  microStep (compressing s.ph && decide (s.rc = BitVec.ofNat 7 r))
    { s with w := roundWords (RT r) (s.B.word (RT r).g) s.w, rc := BitVec.ofNat 7 (r + 1) }

/-- `RND00` (R70). -/
def execRnd00 (s : State) : Host.Outcome State Fault Refusal := roundStep 0 s

/-- `RND01` (R71). -/
def execRnd01 (s : State) : Host.Outcome State Fault Refusal := roundStep 1 s

/-- `RND02` (R72). -/
def execRnd02 (s : State) : Host.Outcome State Fault Refusal := roundStep 2 s

/-- `RND03` (R73). -/
def execRnd03 (s : State) : Host.Outcome State Fault Refusal := roundStep 3 s

/-- `RND04` (R74). -/
def execRnd04 (s : State) : Host.Outcome State Fault Refusal := roundStep 4 s

/-- `RND05` (R75). -/
def execRnd05 (s : State) : Host.Outcome State Fault Refusal := roundStep 5 s

/-- `RND06` (R76). -/
def execRnd06 (s : State) : Host.Outcome State Fault Refusal := roundStep 6 s

/-- `RND07` (R77). -/
def execRnd07 (s : State) : Host.Outcome State Fault Refusal := roundStep 7 s

/-- `RND08` (R78). -/
def execRnd08 (s : State) : Host.Outcome State Fault Refusal := roundStep 8 s

/-- `RND09` (R79). -/
def execRnd09 (s : State) : Host.Outcome State Fault Refusal := roundStep 9 s

/-- `RND10` (R80). -/
def execRnd10 (s : State) : Host.Outcome State Fault Refusal := roundStep 10 s

/-- `RND11` (R81). -/
def execRnd11 (s : State) : Host.Outcome State Fault Refusal := roundStep 11 s

/-- `RND12` (R82). -/
def execRnd12 (s : State) : Host.Outcome State Fault Refusal := roundStep 12 s

/-- `RND13` (R83). -/
def execRnd13 (s : State) : Host.Outcome State Fault Refusal := roundStep 13 s

/-- `RND14` (R84). -/
def execRnd14 (s : State) : Host.Outcome State Fault Refusal := roundStep 14 s

/-- `RND15` (R85). -/
def execRnd15 (s : State) : Host.Outcome State Fault Refusal := roundStep 15 s

/-- `RND16` (R86). -/
def execRnd16 (s : State) : Host.Outcome State Fault Refusal := roundStep 16 s

/-- `RND17` (R87). -/
def execRnd17 (s : State) : Host.Outcome State Fault Refusal := roundStep 17 s

/-- `RND18` (R88). -/
def execRnd18 (s : State) : Host.Outcome State Fault Refusal := roundStep 18 s

/-- `RND19` (R89). -/
def execRnd19 (s : State) : Host.Outcome State Fault Refusal := roundStep 19 s

/-- `RND20` (R90). -/
def execRnd20 (s : State) : Host.Outcome State Fault Refusal := roundStep 20 s

/-- `RND21` (R91). -/
def execRnd21 (s : State) : Host.Outcome State Fault Refusal := roundStep 21 s

/-- `RND22` (R92). -/
def execRnd22 (s : State) : Host.Outcome State Fault Refusal := roundStep 22 s

/-- `RND23` (R93). -/
def execRnd23 (s : State) : Host.Outcome State Fault Refusal := roundStep 23 s

/-- `RND24` (R94). -/
def execRnd24 (s : State) : Host.Outcome State Fault Refusal := roundStep 24 s

/-- `RND25` (R95). -/
def execRnd25 (s : State) : Host.Outcome State Fault Refusal := roundStep 25 s

/-- `RND26` (R96). -/
def execRnd26 (s : State) : Host.Outcome State Fault Refusal := roundStep 26 s

/-- `RND27` (R97). -/
def execRnd27 (s : State) : Host.Outcome State Fault Refusal := roundStep 27 s

/-- `RND28` (R98). -/
def execRnd28 (s : State) : Host.Outcome State Fault Refusal := roundStep 28 s

/-- `RND29` (R99). -/
def execRnd29 (s : State) : Host.Outcome State Fault Refusal := roundStep 29 s

/-- `RND30` (R100). -/
def execRnd30 (s : State) : Host.Outcome State Fault Refusal := roundStep 30 s

/-- `RND31` (R101). -/
def execRnd31 (s : State) : Host.Outcome State Fault Refusal := roundStep 31 s

/-- `RND32` (R102). -/
def execRnd32 (s : State) : Host.Outcome State Fault Refusal := roundStep 32 s

/-- `RND33` (R103). -/
def execRnd33 (s : State) : Host.Outcome State Fault Refusal := roundStep 33 s

/-- `RND34` (R104). -/
def execRnd34 (s : State) : Host.Outcome State Fault Refusal := roundStep 34 s

/-- `RND35` (R105). -/
def execRnd35 (s : State) : Host.Outcome State Fault Refusal := roundStep 35 s

/-- `RND36` (R106). -/
def execRnd36 (s : State) : Host.Outcome State Fault Refusal := roundStep 36 s

/-- `RND37` (R107). -/
def execRnd37 (s : State) : Host.Outcome State Fault Refusal := roundStep 37 s

/-- `RND38` (R108). -/
def execRnd38 (s : State) : Host.Outcome State Fault Refusal := roundStep 38 s

/-- `RND39` (R109). -/
def execRnd39 (s : State) : Host.Outcome State Fault Refusal := roundStep 39 s

/-- `RND40` (R110). -/
def execRnd40 (s : State) : Host.Outcome State Fault Refusal := roundStep 40 s

/-- `RND41` (R111). -/
def execRnd41 (s : State) : Host.Outcome State Fault Refusal := roundStep 41 s

/-- `RND42` (R112). -/
def execRnd42 (s : State) : Host.Outcome State Fault Refusal := roundStep 42 s

/-- `RND43` (R113). -/
def execRnd43 (s : State) : Host.Outcome State Fault Refusal := roundStep 43 s

/-- `RND44` (R114). -/
def execRnd44 (s : State) : Host.Outcome State Fault Refusal := roundStep 44 s

/-- `RND45` (R115). -/
def execRnd45 (s : State) : Host.Outcome State Fault Refusal := roundStep 45 s

/-- `RND46` (R116). -/
def execRnd46 (s : State) : Host.Outcome State Fault Refusal := roundStep 46 s

/-- `RND47` (R117). -/
def execRnd47 (s : State) : Host.Outcome State Fault Refusal := roundStep 47 s

/-- `RND48` (R118). -/
def execRnd48 (s : State) : Host.Outcome State Fault Refusal := roundStep 48 s

/-- `RND49` (R119). -/
def execRnd49 (s : State) : Host.Outcome State Fault Refusal := roundStep 49 s

/-- `RND50` (R120). -/
def execRnd50 (s : State) : Host.Outcome State Fault Refusal := roundStep 50 s

/-- `RND51` (R121). -/
def execRnd51 (s : State) : Host.Outcome State Fault Refusal := roundStep 51 s

/-- `RND52` (R122). -/
def execRnd52 (s : State) : Host.Outcome State Fault Refusal := roundStep 52 s

/-- `RND53` (R123). -/
def execRnd53 (s : State) : Host.Outcome State Fault Refusal := roundStep 53 s

/-- `RND54` (R124). -/
def execRnd54 (s : State) : Host.Outcome State Fault Refusal := roundStep 54 s

/-- `RND55` (R125). -/
def execRnd55 (s : State) : Host.Outcome State Fault Refusal := roundStep 55 s

/-- `RND56` (R126). -/
def execRnd56 (s : State) : Host.Outcome State Fault Refusal := roundStep 56 s

/-- `RND57` (R127). -/
def execRnd57 (s : State) : Host.Outcome State Fault Refusal := roundStep 57 s

/-- `RND58` (R128). -/
def execRnd58 (s : State) : Host.Outcome State Fault Refusal := roundStep 58 s

/-- `RND59` (R129). -/
def execRnd59 (s : State) : Host.Outcome State Fault Refusal := roundStep 59 s

/-- `RND60` (R130). -/
def execRnd60 (s : State) : Host.Outcome State Fault Refusal := roundStep 60 s

/-- `RND61` (R131). -/
def execRnd61 (s : State) : Host.Outcome State Fault Refusal := roundStep 61 s

/-- `RND62` (R132). -/
def execRnd62 (s : State) : Host.Outcome State Fault Refusal := roundStep 62 s

/-- `RND63` (R133). -/
def execRnd63 (s : State) : Host.Outcome State Fault Refusal := roundStep 63 s

/-- `ACC` (R146), selected by a compression phase and `RC = 64` (R64). -/
def execAcc (s : State) : Host.Outcome State Fault Refusal :=
  microStep (compressing s.ph && decide (s.rc = 64#7))
    { s with H := accumulate s.H s.w, rc := 0, ph := nextPhase s.ph s.fill }

end Sys2Proof.Machine
end

