-- ==== Sys2Proof/Machine/Padder.lean ====
section
/-! DEFINITION. The message padder: the padding function `Pad` and its blocks (R134 to R137), and the
two formatter micro-steps `FMT1` and `FMT2` (R138, R139). -/

namespace Sys2Proof.Machine

/-! ## The function -/

/-- `Z = (55 - L) mod 64`, the number of zero bytes (R134). -/
def padZeros (len : Nat) : Nat := ((55 - (len : Int)) % 64).toNat

/-- `2^61 - 1`, the longest message in bytes (R5 `LENW`, R24). -/
def maxLen : BitVec 61 := 0x1FFFFFFFFFFFFFFF#61

/-- The bit length `8 * L` of a message within the limit always fits the 64-bit footer (R141). -/
theorem bitLength_lt {len : Nat} (h : len ≤ maxLen.toNat) : 8 * len < 2 ^ 64 := by
  have e : maxLen.toNat = 2305843009213693951 := rfl
  omega

/-- The footer: the 8 bytes of the bit length `8 * L`, which is never reduced (R134, R141). -/
def footer (len : Nat) (h : len ≤ maxLen.toNat) : List Byte :=
  bytes64 (BitVec.ofNatLT (8 * len) (bitLength_lt h))

/-- `Pad(msg)` (R134). For `L >= 2^61` it is "not defined, and never evaluated": nothing (R141, U1). -/
def pad (msg : List Byte) : Option (List Byte) :=
  if h : msg.length ≤ maxLen.toNat then
    some (msg ++ [0x80#8] ++ List.replicate (padZeros msg.length) 0x00#8 ++ footer msg.length h)
  else none

/-- `N(L)`, the number of blocks of the padded message (R135). -/
def numBlocks (len : Nat) : Nat := (len + 8) / 64 + 1

/-- Block `i` of a padded message: its bytes `64i` to `64i + 63` (R136). -/
def blockOf (padded : List Byte) (i : Nat) : List Byte := (padded.drop (64 * i)).take 64

/-! ## The micro-steps -/

/-- Byte `j` of the buffer after `FMT1`: the message bytes stay below `FILL`, then `0x80`, then zeros,
and from byte 56 on the length footer if `FILL <= 55` (R138). -/
def fmt1Byte (s : State) (j : Nat) : Byte :=
  if s.fill.toNat ≤ 55 ∧ 56 ≤ j then byteOf s.bitlen (j - 56)
  else if j < s.fill.toNat then s.B.read j
  else if j = s.fill.toNat then 0x80#8
  else 0x00#8

/-- Byte `j` of the buffer after `FMT2`: zeros, then the length footer (R139). -/
def fmt2Byte (s : State) (j : Nat) : Byte :=
  if 56 ≤ j then byteOf s.bitlen (j - 56) else 0x00#8

/-- `FMT1` (R138), selected by `PH = PAD1` and `RC = 0` (R64). -/
def execFmt1 (s : State) : Host.Outcome State Fault Refusal :=
  microStep (decide (s.ph = .pad1 ∧ s.rc = 0#7))
    { s.load with B := Memory.ofFn (fmt1Byte s), ph := .compP1 }

/-- `FMT2` (R139), selected by `PH = PAD2` and `RC = 0` (R64). -/
def execFmt2 (s : State) : Host.Outcome State Fault Refusal :=
  microStep (decide (s.ph = .pad2 ∧ s.rc = 0#7))
    { s.load with B := Memory.ofFn (fmt2Byte s), ph := .compP2 }

end Sys2Proof.Machine
end

