-- ==== Sys2Proof/Machine/Serializer.lean ====
section
/-! DEFINITION. The output serializer: the function `Ser`, the view `DIGEST` (R36, R167) and the command
`READ` (R168). -/

namespace Sys2Proof.Machine

/-- `Ser(S)`, the 16 bytes of a digest state (R167). -/
def ser (h : DigestState) : List Byte := bytes32 h.h0 ++ bytes32 h.h1 ++ bytes32 h.h2 ++ bytes32 h.h3

/-- `H[q]` for `q` 0 to 3. -/
def digestWord (h : DigestState) (q : BitVec 2) : Word :=
  if q = 0#2 then h.h0 else if q = 1#2 then h.h1 else if q = 2#2 then h.h2 else h.h3

/-- `DIGEST[i] = (H[i div 4] >> (8 * (i mod 4)))[7:0]` (R36, R46). -/
def digestByte (h : DigestState) (i : BitVec 4) : Byte :=
  (digestWord h (i.extractLsb' 2 2) >>> (8 * (i.toNat % 4))).extractLsb' 0 8

/-- `READ idx` (R168). A frozen core (R177) and a phase other than `DONE` answer an unspecified byte; the
latter also raises `PhaseViolation` (R174, R176). -/
def execRead (idx : BitVec 4) (s : State) : Host.Outcome State Fault Refusal :=
  command s fun s =>
    if s.err then s.respondFree
    else if s.ph ≠ .done then (s.raise .phaseViolation).respondFree
    else s.respond (digestByte s.H idx)

end Sys2Proof.Machine
end

