-- ==== Sys2Proof/Machine/Driver.lean ====
section
/-! DEFINITION. The driver: the commands `INIT`, `DATA`, `FINAL`, `STATUS` (R155 to R158), the function a
complete command sequence computes (R166), the command sequence itself (R165) and the number of
micro-steps it takes (R162). `READ` is in Machine/Serializer.lean. -/

namespace Sys2Proof.Machine

/-- `INIT` (R155). A frozen core ignores it (R177). -/
def execInit (s : State) : Host.Outcome State Fault Refusal :=
  command s fun s =>
    if s.err then s else { s with H := IV, len := 0, rc := 0, ph := .absorb }

/-- Accept one message byte: `B[FILL] <- byte`, `LEN <- LEN + 1`, and when this is byte 63 of the block,
the load action and `COMP_D` (R156). -/
def State.acceptByte (s : State) (byte : Byte) : State :=
  let t := { s with B := s.B.write s.fill.toNat byte, len := s.len + 1 }
  if s.fill = 63#6 then { t.load with ph := .compD } else t

/-- `DATA byte` (R156, priority R178). A frozen core ignores it (R177). -/
def execData (byte : Byte) (s : State) : Host.Outcome State Fault Refusal :=
  command s fun s =>
    if s.err then s
    else if s.ph ≠ .absorb then s.raise .phaseViolation
    else if s.len = maxLen then s.raise .lengthOverflow
    else s.acceptByte byte

/-- `FINAL` (R157). A frozen core ignores it (R177). -/
def execFinal (s : State) : Host.Outcome State Fault Refusal :=
  command s fun s =>
    if s.err then s
    else if s.ph ≠ .absorb then s.raise .phaseViolation
    else { s with ph := .pad1 }

/-- `STATUS` (R158): it has its effect also on a frozen core (R177). -/
def execStatus (s : State) : Host.Outcome State Fault Refusal :=
  command s fun s => s.respond s.statusByte

/-! ## What a complete command sequence computes -/

/-- The digest state after the first `n` blocks of a padded message (R166). -/
def foldBlocks (padded : List Byte) : Nat → DigestState
  | 0 => IV
  | n + 1 => compress (foldBlocks padded n) (blockOf padded n)

/-- `MD5state(msg)` (R166); a message of 2^61 bytes or more has none (R141). -/
def md5State (msg : List Byte) : Option DigestState :=
  (pad msg).map fun padded => foldBlocks padded (numBlocks msg.length)

/-- `MD5(msg)`, 16 bytes (R166); a message of 2^61 bytes or more has none (R141: "a model must not give
such a message a digest"). -/
def md5 (msg : List Byte) : Option (List Byte) := (md5State msg).map ser

/-- The command words of the well-formed message script for `msg`: `INIT`, one `DATA` a byte, `FINAL`
(R165). -/
def script (msg : List Byte) : List CommandWord :=
  0x001#10 :: (msg.map (fun byte => 0b01#2 ++ byte) ++ [0x002#10])

/-- The number of micro-steps of a run for a message of `len` bytes (R162). -/
def microStepCount (len : Nat) : Nat :=
  65 * (len / 64) + (if len % 64 ≤ 55 then 66 else 132)

end Sys2Proof.Machine
end

