-- ==== Sys2Proof/Syntax.lean ====
section
/-! DEFINITION. The instructions: one constructor per row of `spec/opcode_table.json`. The five host
commands come first, then the micro-steps that the sequencer selects (R64, R68). -/

namespace Sys2Proof

/-- One constructor per row of the opcode table. `data` and `read` carry the only operands there are
(R59); a micro-step has none: what it works on is in the state. -/
inductive Instr where
  /-- `INIT`, start a digest computation (R155). -/
  | init
  /-- `FINAL`, end the message (R157). -/
  | final
  /-- `STATUS`, read the status byte (R158). -/
  | status
  /-- `DATA byte`, append one message byte (R156). -/
  | data (byte : Byte)
  /-- `READ idx`, read one byte of the digest (R168). -/
  | read (idx : BitVec 4)
  /-- `FMT1`, format the first padding block (R138). -/
  | fmt1
  /-- `FMT2`, format the second padding block (R139). -/
  | fmt2
  /- `RND00` to `RND63`, the rounds: rule R(70 + n) for round n. -/
  | rnd00 | rnd01 | rnd02 | rnd03 | rnd04 | rnd05 | rnd06 | rnd07
  | rnd08 | rnd09 | rnd10 | rnd11 | rnd12 | rnd13 | rnd14 | rnd15
  | rnd16 | rnd17 | rnd18 | rnd19 | rnd20 | rnd21 | rnd22 | rnd23
  | rnd24 | rnd25 | rnd26 | rnd27 | rnd28 | rnd29 | rnd30 | rnd31
  | rnd32 | rnd33 | rnd34 | rnd35 | rnd36 | rnd37 | rnd38 | rnd39
  | rnd40 | rnd41 | rnd42 | rnd43 | rnd44 | rnd45 | rnd46 | rnd47
  | rnd48 | rnd49 | rnd50 | rnd51 | rnd52 | rnd53 | rnd54 | rnd55
  | rnd56 | rnd57 | rnd58 | rnd59 | rnd60 | rnd61 | rnd62 | rnd63
  /-- `ACC`, accumulate (R146). -/
  | acc
deriving DecidableEq, Repr

end Sys2Proof
end

