-- ==== Sys2Proof/Machine/Dispatch.lean ====
section
/-! DEFINITION. The dispatch: one arm per instruction. -/

namespace Sys2Proof.Machine

def exec (i : Instr) (s : State) : Host.Outcome State Fault Refusal :=
  match i with
  | .init => Sys2Proof.Machine.execInit s
  | .final => Sys2Proof.Machine.execFinal s
  | .status => Sys2Proof.Machine.execStatus s
  | .data byte => Sys2Proof.Machine.execData byte s
  | .read idx => Sys2Proof.Machine.execRead idx s
  | .fmt1 => Sys2Proof.Machine.execFmt1 s
  | .fmt2 => Sys2Proof.Machine.execFmt2 s
  | .rnd00 => Sys2Proof.Machine.execRnd00 s
  | .rnd01 => Sys2Proof.Machine.execRnd01 s
  | .rnd02 => Sys2Proof.Machine.execRnd02 s
  | .rnd03 => Sys2Proof.Machine.execRnd03 s
  | .rnd04 => Sys2Proof.Machine.execRnd04 s
  | .rnd05 => Sys2Proof.Machine.execRnd05 s
  | .rnd06 => Sys2Proof.Machine.execRnd06 s
  | .rnd07 => Sys2Proof.Machine.execRnd07 s
  | .rnd08 => Sys2Proof.Machine.execRnd08 s
  | .rnd09 => Sys2Proof.Machine.execRnd09 s
  | .rnd10 => Sys2Proof.Machine.execRnd10 s
  | .rnd11 => Sys2Proof.Machine.execRnd11 s
  | .rnd12 => Sys2Proof.Machine.execRnd12 s
  | .rnd13 => Sys2Proof.Machine.execRnd13 s
  | .rnd14 => Sys2Proof.Machine.execRnd14 s
  | .rnd15 => Sys2Proof.Machine.execRnd15 s
  | .rnd16 => Sys2Proof.Machine.execRnd16 s
  | .rnd17 => Sys2Proof.Machine.execRnd17 s
  | .rnd18 => Sys2Proof.Machine.execRnd18 s
  | .rnd19 => Sys2Proof.Machine.execRnd19 s
  | .rnd20 => Sys2Proof.Machine.execRnd20 s
  | .rnd21 => Sys2Proof.Machine.execRnd21 s
  | .rnd22 => Sys2Proof.Machine.execRnd22 s
  | .rnd23 => Sys2Proof.Machine.execRnd23 s
  | .rnd24 => Sys2Proof.Machine.execRnd24 s
  | .rnd25 => Sys2Proof.Machine.execRnd25 s
  | .rnd26 => Sys2Proof.Machine.execRnd26 s
  | .rnd27 => Sys2Proof.Machine.execRnd27 s
  | .rnd28 => Sys2Proof.Machine.execRnd28 s
  | .rnd29 => Sys2Proof.Machine.execRnd29 s
  | .rnd30 => Sys2Proof.Machine.execRnd30 s
  | .rnd31 => Sys2Proof.Machine.execRnd31 s
  | .rnd32 => Sys2Proof.Machine.execRnd32 s
  | .rnd33 => Sys2Proof.Machine.execRnd33 s
  | .rnd34 => Sys2Proof.Machine.execRnd34 s
  | .rnd35 => Sys2Proof.Machine.execRnd35 s
  | .rnd36 => Sys2Proof.Machine.execRnd36 s
  | .rnd37 => Sys2Proof.Machine.execRnd37 s
  | .rnd38 => Sys2Proof.Machine.execRnd38 s
  | .rnd39 => Sys2Proof.Machine.execRnd39 s
  | .rnd40 => Sys2Proof.Machine.execRnd40 s
  | .rnd41 => Sys2Proof.Machine.execRnd41 s
  | .rnd42 => Sys2Proof.Machine.execRnd42 s
  | .rnd43 => Sys2Proof.Machine.execRnd43 s
  | .rnd44 => Sys2Proof.Machine.execRnd44 s
  | .rnd45 => Sys2Proof.Machine.execRnd45 s
  | .rnd46 => Sys2Proof.Machine.execRnd46 s
  | .rnd47 => Sys2Proof.Machine.execRnd47 s
  | .rnd48 => Sys2Proof.Machine.execRnd48 s
  | .rnd49 => Sys2Proof.Machine.execRnd49 s
  | .rnd50 => Sys2Proof.Machine.execRnd50 s
  | .rnd51 => Sys2Proof.Machine.execRnd51 s
  | .rnd52 => Sys2Proof.Machine.execRnd52 s
  | .rnd53 => Sys2Proof.Machine.execRnd53 s
  | .rnd54 => Sys2Proof.Machine.execRnd54 s
  | .rnd55 => Sys2Proof.Machine.execRnd55 s
  | .rnd56 => Sys2Proof.Machine.execRnd56 s
  | .rnd57 => Sys2Proof.Machine.execRnd57 s
  | .rnd58 => Sys2Proof.Machine.execRnd58 s
  | .rnd59 => Sys2Proof.Machine.execRnd59 s
  | .rnd60 => Sys2Proof.Machine.execRnd60 s
  | .rnd61 => Sys2Proof.Machine.execRnd61 s
  | .rnd62 => Sys2Proof.Machine.execRnd62 s
  | .rnd63 => Sys2Proof.Machine.execRnd63 s
  | .acc => Sys2Proof.Machine.execAcc s

end Sys2Proof.Machine
end

