-- ==== Sys2Proof/WellFormed.lean ====
section
/-! DEFINITION. Which words are words of the machine. An instruction's operands are typed so narrowly
that none can be out of range (R47, R59), so the checks are on the words: a command word may be reserved
(R60), a sequencer state may be unreachable (R65). The checks are written from those two rules, not from
the decoder. -/

namespace Sys2Proof

/-- A reserved command word, by the ranges of R60. -/
abbrev CommandReserved (cmd : CommandWord) : Prop :=
  cmd.toNat = 0x000 ∨ (0x004 ≤ cmd.toNat ∧ cmd.toNat ≤ 0x0FF) ∨
  (0x210 ≤ cmd.toNat ∧ cmd.toNat ≤ 0x2FF) ∨ (0x300 ≤ cmd.toNat ∧ cmd.toNat ≤ 0x3FF)

/-- The three compression phases `COMP_D`, `COMP_P1`, `COMP_P2`, by their numbers (R27). -/
abbrev CompressNumber (ph : BitVec 3) : Prop := ph.toNat = 4 ∨ ph.toNat = 5 ∨ ph.toNat = 6

/-- A sequencer state that is never reached: `RC` above 64, or `RC` non-zero outside a compression
phase (R65). -/
abbrev SequencerUnreachable (ph : BitVec 3) (rc : BitVec 7) : Prop :=
  65 ≤ rc.toNat ∨ (rc.toNat ≠ 0 ∧ ¬ CompressNumber ph)

/-- A word is well formed when it is not reserved and not unreachable. -/
def CodeWord.wellFormed : CodeWord → Bool
  | .command cmd => decide (¬ CommandReserved cmd)
  | .sequencer ph rc => decide (¬ SequencerUnreachable ph rc)

/-- An instruction is well formed when its operand is in the range of R66: `DATA` 0 to 255, `READ` 0
to 15. The operand types allow nothing else, so every instruction is well formed
(`Laws.instr_wellFormed`). -/
def Instr.wellFormed : Instr → Bool
  | .data byte => decide (byte.toNat ≤ 255)
  | .read idx => decide (idx.toNat ≤ 15)
  | _ => true

end Sys2Proof
end

