-- ==== Sys2Proof/Decode.lean ====
section
/-! DEFINITION. The decoder of command words (R61), the sequencer's decode (R64, R65), the encoder
written from the same tables, and the table's numbering of its rows. -/

namespace Sys2Proof

/-- What decoding a word answers: an instruction, or why there is none, by name. -/
inductive Decoded where
  /-- The word selects this instruction. -/
  | instr (i : Instr)
  /-- A reserved command word: presenting it raises `IllegalCommand` (R60, R61 `ILLEGAL`). -/
  | reserved
  /-- A sequencer state in which the core waits for a command (R64, first row). -/
  | waits
  /-- A sequencer state that cannot be reached and has no meaning (R65). -/
  | unreachable
deriving DecidableEq, Repr

/-- The command decoder, total on all 1024 words (R61, with R56 to R59). -/
def decodeCommand (cmd : CommandWord) : Decoded :=
  if cmd = 0x001#10 then .instr .init
  else if cmd = 0x002#10 then .instr .final
  else if cmd = 0x003#10 then .instr .status
  else if cmd.extractLsb' 8 2 = 0b01#2 then .instr (.data (cmd.extractLsb' 0 8))
  else if cmd.extractLsb' 4 6 = 0b100000#6 then .instr (.read (cmd.extractLsb' 0 4))
  else .reserved

/-- Rounds 0 to 15, in order. -/
def rounds0 : List Instr :=
  [.rnd00, .rnd01, .rnd02, .rnd03, .rnd04, .rnd05, .rnd06, .rnd07,
   .rnd08, .rnd09, .rnd10, .rnd11, .rnd12, .rnd13, .rnd14, .rnd15]

/-- Rounds 16 to 31, in order. -/
def rounds16 : List Instr :=
  [.rnd16, .rnd17, .rnd18, .rnd19, .rnd20, .rnd21, .rnd22, .rnd23,
   .rnd24, .rnd25, .rnd26, .rnd27, .rnd28, .rnd29, .rnd30, .rnd31]

/-- Rounds 32 to 47, in order. -/
def rounds32 : List Instr :=
  [.rnd32, .rnd33, .rnd34, .rnd35, .rnd36, .rnd37, .rnd38, .rnd39,
   .rnd40, .rnd41, .rnd42, .rnd43, .rnd44, .rnd45, .rnd46, .rnd47]

/-- Rounds 48 to 63, in order. -/
def rounds48 : List Instr :=
  [.rnd48, .rnd49, .rnd50, .rnd51, .rnd52, .rnd53, .rnd54, .rnd55,
   .rnd56, .rnd57, .rnd58, .rnd59, .rnd60, .rnd61, .rnd62, .rnd63]

/-- The round micro-steps in order: entry `n` is `RNDnn` (R64, R68). -/
def roundInstrs : List Instr := rounds0 ++ rounds16 ++ rounds32 ++ rounds48

/-- `RNDnn` for a round index `n` below 64. -/
def roundInstr (n : Nat) : Instr := roundInstrs.getD n .acc

/-- What `RC` selects while `PH` is a compression phase: round `RC` below 64, `ACC` at 64, nothing
above (R64, rows 4 and 5; R65). -/
def decodeRoundCounter (rc : BitVec 7) : Decoded :=
  if rc.toNat < 64 then .instr (roundInstr rc.toNat)
  else if rc = 64#7 then .instr .acc
  else .unreachable

/-- The sequencer's decode, total on all 1024 values of `{PH, RC}` (R64, R65). -/
def decodeSequencer (ph : BitVec 3) (rc : BitVec 7) : Decoded :=
  if ph = 4#3 ∨ ph = 5#3 ∨ ph = 6#3 then decodeRoundCounter rc
  else if rc ≠ 0#7 then .unreachable
  else if ph = 2#3 then .instr .fmt1
  else if ph = 3#3 then .instr .fmt2
  else .waits

/-- The decoder of both kinds of word. -/
def decode : CodeWord → Decoded
  | .command cmd => decodeCommand cmd
  | .sequencer ph rc => decodeSequencer ph rc

/-- The encoder, from R56 to R58 for the commands and from the table of R64 for the micro-steps. A
round or `ACC` is selected by three values of `PH`; the encoder writes `COMP_D`, 4 (DESIGN CHOICE, safe,
log entry 11). -/
def encode : Instr → CodeWord
  | .init => .command 0b00_0000_0001#10
  | .final => .command 0b00_0000_0010#10
  | .status => .command 0b00_0000_0011#10
  | .data byte => .command (0b01#2 ++ byte)
  | .read idx => .command (0b100000#6 ++ idx)
  | .fmt1 => .sequencer 2#3 0#7
  | .fmt2 => .sequencer 3#3 0#7
  | .rnd00 => .sequencer 4#3 0#7
  | .rnd01 => .sequencer 4#3 1#7
  | .rnd02 => .sequencer 4#3 2#7
  | .rnd03 => .sequencer 4#3 3#7
  | .rnd04 => .sequencer 4#3 4#7
  | .rnd05 => .sequencer 4#3 5#7
  | .rnd06 => .sequencer 4#3 6#7
  | .rnd07 => .sequencer 4#3 7#7
  | .rnd08 => .sequencer 4#3 8#7
  | .rnd09 => .sequencer 4#3 9#7
  | .rnd10 => .sequencer 4#3 10#7
  | .rnd11 => .sequencer 4#3 11#7
  | .rnd12 => .sequencer 4#3 12#7
  | .rnd13 => .sequencer 4#3 13#7
  | .rnd14 => .sequencer 4#3 14#7
  | .rnd15 => .sequencer 4#3 15#7
  | .rnd16 => .sequencer 4#3 16#7
  | .rnd17 => .sequencer 4#3 17#7
  | .rnd18 => .sequencer 4#3 18#7
  | .rnd19 => .sequencer 4#3 19#7
  | .rnd20 => .sequencer 4#3 20#7
  | .rnd21 => .sequencer 4#3 21#7
  | .rnd22 => .sequencer 4#3 22#7
  | .rnd23 => .sequencer 4#3 23#7
  | .rnd24 => .sequencer 4#3 24#7
  | .rnd25 => .sequencer 4#3 25#7
  | .rnd26 => .sequencer 4#3 26#7
  | .rnd27 => .sequencer 4#3 27#7
  | .rnd28 => .sequencer 4#3 28#7
  | .rnd29 => .sequencer 4#3 29#7
  | .rnd30 => .sequencer 4#3 30#7
  | .rnd31 => .sequencer 4#3 31#7
  | .rnd32 => .sequencer 4#3 32#7
  | .rnd33 => .sequencer 4#3 33#7
  | .rnd34 => .sequencer 4#3 34#7
  | .rnd35 => .sequencer 4#3 35#7
  | .rnd36 => .sequencer 4#3 36#7
  | .rnd37 => .sequencer 4#3 37#7
  | .rnd38 => .sequencer 4#3 38#7
  | .rnd39 => .sequencer 4#3 39#7
  | .rnd40 => .sequencer 4#3 40#7
  | .rnd41 => .sequencer 4#3 41#7
  | .rnd42 => .sequencer 4#3 42#7
  | .rnd43 => .sequencer 4#3 43#7
  | .rnd44 => .sequencer 4#3 44#7
  | .rnd45 => .sequencer 4#3 45#7
  | .rnd46 => .sequencer 4#3 46#7
  | .rnd47 => .sequencer 4#3 47#7
  | .rnd48 => .sequencer 4#3 48#7
  | .rnd49 => .sequencer 4#3 49#7
  | .rnd50 => .sequencer 4#3 50#7
  | .rnd51 => .sequencer 4#3 51#7
  | .rnd52 => .sequencer 4#3 52#7
  | .rnd53 => .sequencer 4#3 53#7
  | .rnd54 => .sequencer 4#3 54#7
  | .rnd55 => .sequencer 4#3 55#7
  | .rnd56 => .sequencer 4#3 56#7
  | .rnd57 => .sequencer 4#3 57#7
  | .rnd58 => .sequencer 4#3 58#7
  | .rnd59 => .sequencer 4#3 59#7
  | .rnd60 => .sequencer 4#3 60#7
  | .rnd61 => .sequencer 4#3 61#7
  | .rnd62 => .sequencer 4#3 62#7
  | .rnd63 => .sequencer 4#3 63#7
  | .acc => .sequencer 4#3 64#7

/-- The instruction in a decoder's answer, if there is one. -/
def Decoded.instr? : Decoded → Option Instr
  | .instr i => some i
  | .reserved | .waits | .unreachable => none

/-- A row of the table whose bits are the 3 bits of `PH` (format `SEQ_PH`, R64): `FMT1` or `FMT2`, with
`RC = 0`. R64 gives this format no other row, and does not say what another value of the 3 bits stands for
as a row: it answers nothing (DESIGN CHOICE, safe, log entry 11). -/
def decodePhaseRow (w : Nat) : Option Instr :=
  if w = 2 ∨ w = 3 then (decodeSequencer (BitVec.ofNat 3 w) 0#7).instr? else none

/-- A row of the table whose bits are the 7 bits of `RC`, valid in a compression phase (format
`SEQ_RC`, R64). -/
def decodeCounterRow (w : Nat) : Option Instr :=
  if w < 128 then (decodeRoundCounter (BitVec.ofNat 7 w)).instr? else none

/-- A row of the table whose bits are a 10-bit command word (formats `C0`, `CB`, `CI`, R55). -/
def decodeCommandRow (w : Nat) : Option Instr :=
  if w < 1024 then (decodeCommand (BitVec.ofNat 10 w)).instr? else none

/-- The instruction of a table row of `nbits` bits whose bits are `w`. The table's rows have 3 bits
(`SEQ_PH`), 7 bits (`SEQ_RC`) or 10 bits (commands); in whole bytes the first two are 8 bits both, and
then the values 2 and 3 are rows of either format: they are read as the rows that stand first in the
table, `FMT1` and `FMT2`. A number of bits that no format has is read as the next wider format (DESIGN
CHOICE, safe, log entry 11). -/
def decodeTableWord (nbits w : Nat) : Option Instr :=
  if nbits ≤ 3 then decodePhaseRow w
  else if nbits ≤ 7 then decodeCounterRow w
  else if nbits ≤ 8 then
    (if w = 2 ∨ w = 3 then decodePhaseRow w else decodeCounterRow w)
  else decodeCommandRow w

end Sys2Proof
end

