-- ==== Sys2Proof/Machine/Fetch.lean ====
section
/-! DEFINITION. What happens next (R163): a requested reset, the micro-step that `{PH, RC}` selects, a
command that is accepted, or waiting; and how an instruction is placed to be the very next one (log entry
13). -/

namespace Sys2Proof.Machine

/-- What a step of the machine is about to do, and in which state. -/
inductive Fetched where
  /-- Run this instruction in this state. -/
  | run (i : Instr) (s : State)
  /-- The host presents a reserved word and it is accepted (R60). -/
  | illegal (s : State)
  /-- Nothing happens: the core is ready and no command is presented (R184). -/
  | waits (s : State)
  /-- A requested reset happens in this state (R187). -/
  | reset (s : State)
  /-- The sequencer state has no meaning (R65). -/
  | unreachable
deriving DecidableEq, Repr

/-- The host lets one step of the core go by, if that is its next event; a command it is presenting stays
where it is (R154: "it is neither lost nor faulted"). -/
def State.hostWaits (s : State) : State :=
  match s.host with
  | .wait :: rest => { s with host := rest }
  | _ => s

/-- A ready core takes the command the host presents, if it presents one (R154, R61). -/
def fetchCommand (s : State) : Fetched :=
  match s.host with
  | .command cmd :: rest =>
    match decodeCommand cmd with
    | .instr i => .run i { s with host := rest }
    | .reserved | .waits | .unreachable => .illegal { s with host := rest }
  | _ => .waits s.hostWaits

/-- The next thing to happen when no reset is requested: the sequencer's decode of `{PH, RC}` says whether
the core takes a micro-step or is ready for a command (R64, R163). -/
def fetchSequenced (s : State) : Fetched :=
  match decodeSequencer (phaseCode s.ph) s.rc with
  | .instr i => .run i s.hostWaits
  | .waits => fetchCommand s
  | .reserved | .unreachable => .unreachable

/-- The next thing to happen. A requested reset comes before everything, in any state (R163(c), R187). -/
def fetch (s : State) : Fetched :=
  match s.host with
  | .reset :: rest => .reset { s with host := rest }
  | _ => fetchSequenced s

/-- Make the core ready for a command: nothing to do where it is; else the sequencer goes to `IDLE`. -/
def State.makeReady (s : State) : State :=
  if decodeSequencer (phaseCode s.ph) s.rc = .waits then s else { s with ph := .idle, rc := 0 }

/-- Set the sequencer to the state whose code word is given, with the host letting that step go by; a
command word is presented to a ready core. -/
def State.place (s : State) : CodeWord → State
  | .command cmd => { s.makeReady with host := .command cmd :: s.host }
  | .sequencer ph rc => { s with ph := phaseOfCode ph, rc := rc, host := .wait :: s.host }

/-- The state in which the next step runs the table row of `nbits` bits whose bits are `w`: a micro-step
is selected by `{PH, RC}`, a command (also a reserved word) is presented by the host. Where at most 8 bits
are no row, nothing is placed. Log entry 13. -/
def State.placeTableWord (s : State) (nbits w : Nat) : State :=
  if nbits ≤ 8 then
    match decodeTableWord nbits w with
    | some i => s.place (encode i)
    | none => s
  else s.place (.command (BitVec.ofNat 10 w))

end Sys2Proof.Machine
end

