-- ==== Sys2Proof/Machine/Step.lean ====
section
/-! DEFINITION. One step of the machine (R163). -/

namespace Sys2Proof.Machine

/-- One step: a requested reset, or the selected micro-step, or the accepted command, or waiting. A busy
core takes its micro-step at every step (R197; log entry 12). -/
def step (s : State) : Host.Outcome State Fault Refusal :=
  match fetch s with
  | .run i t => exec i t
  | .illegal t => .next t.illegalCommand
  | .waits t => .next t
  | .reset t => .next t.resetEvent
  | .unreachable => .refused .unreachableState

/-- `s` with the table row of `nbits` bits whose bits are `w` placed to be what the next step runs. -/
def State.withFetchWord (s : State) (nbits w : Nat) : State := s.placeTableWord nbits w

end Sys2Proof.Machine
end

