-- ==== Sys2Proof/Machine/Assembler.lean ====
section
/-! DEFINITION. Command streams as they are written down: the lines of R66 and the pseudo-instructions of
R67, their text, and their words. What R66 leaves open about the text is log entry 14. -/

namespace Sys2Proof.Machine

/-- One line of a command stream (R66, R67). Numbers are as written, so one can be out of range. -/
inductive AsmLine where
  | init
  | final
  | status
  | data (n : Nat)
  | read (i : Nat)
  /-- `.word w`. -/
  | word (w : Nat)
  /-- `MSG "text"`, by the characters of the text. -/
  | msgText (text : List Char)
  /-- `MSG n0 n1 ... nk`. -/
  | msg (ns : List Nat)
  /-- `REP c n`. -/
  | rep (c n : Nat)
  /-- `DIGEST`. -/
  | digest
  /-- `HASH "text"`. -/
  | hash (text : List Char)
deriving DecidableEq, Repr

/-- A character that a text may hold: 0x20 to 0x7E (R67). -/
def textChar (c : Char) : Bool := decide (0x20 ≤ c.toNat ∧ c.toNat ≤ 0x7E)

/-- Every operand of a line is in its range; "an operand outside its range is an assembly error" (R66,
R67). -/
def lineWellFormed : AsmLine → Bool
  | .init | .final | .status | .digest => true
  | .data n => decide (n ≤ 255)
  | .read i => decide (i ≤ 15)
  | .word w => decide (w ≤ 0x3FF)
  | .msgText text => text.all textChar
  | .msg ns => ns.all fun n => decide (n ≤ 255)
  | .rep _ n => decide (n ≤ 255)
  | .hash text => text.all textChar

/-- `DATA n` (R66). -/
def dataWord (n : Nat) : CommandWord := BitVec.ofNat 10 (0x100 + n)

/-- `READ i` (R66). -/
def readWord (i : Nat) : CommandWord := BitVec.ofNat 10 (0x200 + i)

/-- `DIGEST`: `READ 0` to `READ 15` in order (R67). -/
def digestWords : List CommandWord := (List.range 16).map readWord

/-- `MSG "text"`: one `DATA` a character, by its ASCII code (R67). -/
def textWords (text : List Char) : List CommandWord := text.map fun c => dataWord c.toNat

/-- The words of a line whose operands are in range. -/
def lineWords : AsmLine → List CommandWord
  | .init => [0x001#10]
  | .final => [0x002#10]
  | .status => [0x003#10]
  | .data n => [dataWord n]
  | .read i => [readWord i]
  | .word w => [BitVec.ofNat 10 w]
  | .msgText text => textWords text
  | .msg ns => ns.map dataWord
  | .rep c n => List.replicate c (dataWord n)
  | .digest => digestWords
  | .hash text => 0x001#10 :: (textWords text ++ 0x002#10 :: digestWords)

/-- The words of a command stream, or nothing where a line has an operand out of range. -/
def assemble (lines : List AsmLine) : Option (List CommandWord) :=
  if lines.all lineWellFormed then some (lines.flatMap lineWords) else none

/-! ## The text (R66) -/

/-- A piece of a line: a word (mnemonic or number), or the characters between two quotes. -/
inductive Token where
  | word (cs : List Char)
  | text (cs : List Char)
deriving DecidableEq, Repr

/-- Where the reading of a line stands; the characters read so far are held last first. -/
inductive LexMode where
  | between
  | word (seen : List Char)
  | text (seen : List Char)
deriving DecidableEq, Repr

/-- A character that separates pieces of a line. -/
def blank (c : Char) : Bool := decide (c = ' ' ∨ c = '\t' ∨ c = '\r')

/-- The pieces of a line, or nothing where a quote is not closed or stands inside a word. A `;` outside
quotes starts a comment to the end of the line. -/
def lexLine : List Char → LexMode → List Token → Option (List Token)
  | [], .between, found => some found.reverse
  | [], .word seen, found => some (.word seen.reverse :: found).reverse
  | [], .text _, _ => none
  | c :: cs, .between, found =>
    if c = ';' then some found.reverse
    else if blank c then lexLine cs .between found
    else if c = '"' then lexLine cs (.text []) found
    else lexLine cs (.word [c]) found
  | c :: cs, .word seen, found =>
    if c = ';' then some (.word seen.reverse :: found).reverse
    else if blank c then lexLine cs .between (.word seen.reverse :: found)
    else if c = '"' then none
    else lexLine cs (.word (c :: seen)) found
  | c :: cs, .text seen, found =>
    if c = '"' then lexLine cs .between (.text seen.reverse :: found)
    else lexLine cs (.text (c :: seen)) found

/-- The value of a digit, 16 for a character that is none. -/
def digitValue (c : Char) : Nat :=
  if '0'.toNat ≤ c.toNat ∧ c.toNat ≤ '9'.toNat then c.toNat - '0'.toNat
  else if 'A'.toNat ≤ c.toNat ∧ c.toNat ≤ 'F'.toNat then c.toNat - 'A'.toNat + 10
  else if 'a'.toNat ≤ c.toNat ∧ c.toNat ≤ 'f'.toNat then c.toNat - 'a'.toNat + 10
  else 16

/-- The digits after the value `n`. -/
def digitsFrom (base : Nat) : List Char → Nat → Option Nat
  | [], n => some n
  | c :: cs, n =>
    if digitValue c < base then digitsFrom base cs (base * n + digitValue c) else none

/-- A number, decimal or `0x` hexadecimal (R66). -/
def parseNumber : List Char → Option Nat
  | [] => none
  | '0' :: 'x' :: [] => none
  | '0' :: 'x' :: cs => digitsFrom 16 cs 0
  | cs => digitsFrom 10 cs 0

/-- The numbers of the pieces after a mnemonic. -/
def parseNumbers : List Token → Option (List Nat)
  | [] => some []
  | .word cs :: ts =>
    match parseNumber cs, parseNumbers ts with
    | some n, some ns => some (n :: ns)
    | _, _ => none
  | .text _ :: _ => none

/-- A line with no operand. -/
def lineOf0 (l : AsmLine) (args : List Token) : Option (List AsmLine) :=
  if args = [] then some [l] else none

/-- A line with one number. -/
def lineOf1 (l : Nat → AsmLine) (args : List Token) : Option (List AsmLine) :=
  match parseNumbers args with
  | some [n] => some [l n]
  | _ => none

/-- The line of its pieces; an empty line is no command. -/
def parseTokens : List Token → Option (List AsmLine)
  | [] => some []
  | .text _ :: _ => none
  | .word m :: args =>
    if m = ['I', 'N', 'I', 'T'] then lineOf0 .init args
    else if m = ['F', 'I', 'N', 'A', 'L'] then lineOf0 .final args
    else if m = ['S', 'T', 'A', 'T', 'U', 'S'] then lineOf0 .status args
    else if m = ['D', 'I', 'G', 'E', 'S', 'T'] then lineOf0 .digest args
    else if m = ['D', 'A', 'T', 'A'] then lineOf1 .data args
    else if m = ['R', 'E', 'A', 'D'] then lineOf1 .read args
    else if m = ['.', 'w', 'o', 'r', 'd'] then lineOf1 .word args
    else if m = ['R', 'E', 'P'] then
      match parseNumbers args with
      | some [c, n] => some [.rep c n]
      | _ => none
    else if m = ['H', 'A', 'S', 'H'] then
      match args with
      | [.text cs] => some [.hash cs]
      | _ => none
    else if m = ['M', 'S', 'G'] then
      match args with
      | [.text cs] => some [.msgText cs]
      | _ =>
        match parseNumbers args with
        | some (n :: ns) => some [.msg (n :: ns)]
        | _ => none
    else none

/-- The lines of a text. -/
def splitLines : List Char → List (List Char)
  | [] => [[]]
  | c :: cs =>
    match splitLines cs with
    | [] => [[c]]
    | l :: ls => if c = '\n' then [] :: l :: ls else (c :: l) :: ls

/-- The command stream of its lines, or nothing where one is no line of R66 or R67. -/
def parseLines : List (List Char) → Option (List AsmLine)
  | [] => some []
  | cs :: rest =>
    match (lexLine cs .between []).bind parseTokens, parseLines rest with
    | some l, some ls => some (l ++ ls)
    | _, _ => none

/-- The words of a text (R66, R67). -/
def assembleText (text : List Char) : Option (List CommandWord) :=
  (parseLines (splitLines text)).bind assemble

/-- The host events that present a command stream (R66: every line implies waiting until `ready = 1`,
which is what the port does, R154). -/
def present (words : List CommandWord) : List HostEvent := words.map .command

end Sys2Proof.Machine
end

