-- ==== Sys2Proof/Safety.lean ====
section
/-! DEFINITION. The terms in which claims are stated: several steps, the invariant of the reachable states
(R34), the end of a run (R164), what the host can see of a state. -/

namespace Sys2Proof.Machine

/-- `n` steps, stopping at the first fault or refusal. -/
def steps : Nat → State → Host.Outcome State Fault Refusal
  | 0, s => .next s
  | n + 1, s =>
    match step s with
    | .next t => steps n t
    | .fault r => .fault r
    | .refused r => .refused r

/-- No reset is requested as the next event. -/
def State.noReset (s : State) : Bool :=
  match s.host with
  | .reset :: _ => false
  | _ => true

/-- The invariants of every reachable state: (a) to (e) of R34, with the buffer in its canonical form and,
from R139, that a second padding block is only ever formatted where the first had no room (`FILL >= 56`). -/
structure State.Inv (s : State) : Prop where
  /-- R34(a). -/
  rc_le : s.rc.toNat ≤ 64
  /-- R34(b). -/
  rc_zero : compressing s.ph = false → s.rc = 0#7
  /-- R34(c), first half. -/
  ecode_zero_iff : s.ecode = 0#3 ↔ s.err = false
  /-- R34(c), second half. -/
  ecode_le : s.ecode.toNat ≤ 3
  /-- R34(d): a faulted core is not busy. -/
  err_ready : s.err = true → s.busy = false
  /-- R34(e). -/
  compD_fill : s.ph = .compD → s.fill = 0#6
  /-- R139, R160: `PAD2` is entered only when `FILL >= 56`. -/
  pad2_fill : s.ph = .pad2 ∨ s.ph = .compP2 → 56 ≤ s.fill.toNat
  /-- The block buffer is in its canonical form. -/
  mem_wf : s.B.wf

/-- The end of a run: `PH = DONE` and `ERR = 0` (R164). -/
def State.runComplete (s : State) : Bool := decide (s.ph = .done) && !s.err

/-- Two states that look the same from the port and will be given the same events: the same sequencer
state, fault record, coming events, past responses and number of draws. They may differ in `H`, `a` to
`d`, `B` and `LEN`. -/
structure SamePort (s t : State) : Prop where
  ph : s.ph = t.ph
  rc : s.rc = t.rc
  err : s.err = t.err
  ecode : s.ecode = t.ecode
  host : s.host = t.host
  rsp : s.rsp = t.rsp
  draws : s.draws = t.draws

end Sys2Proof.Machine
end

