-- ==== Sys2Proof/Certificates/Slice0/Obligations.lean ====
section
/-! DEFINITION. The statements for the provers. Each docstring names the rule of the spec it formalises, or
the sections it rests on. -/

open Sys2Proof Sys2Proof.Machine

namespace Sys2Proof.Statements

/-- Every byte of the block buffer reads as before. -/
abbrev SameBytes (s t : State) : Prop := ∀ a : Nat, t.B.read a = s.B.read a

/-- The fault record is as before. -/
abbrev SameRecord (s t : State) : Prop := t.err = s.err ∧ t.ecode = s.ecode

/-- The model's own fields are as before: the host's events, the responses, the count of draws. -/
abbrev SameLog (s t : State) : Prop := t.host = s.host ∧ t.rsp = s.rsp ∧ t.draws = s.draws

/-- Every register of the spec is as before. -/
abbrev SameRegisters (s t : State) : Prop :=
  t.H = s.H ∧ t.w = s.w ∧ SameBytes s t ∧ t.len = s.len ∧ t.ph = s.ph ∧ t.rc = s.rc ∧ SameRecord s t

/-- The instruction is one of the five host commands; the others are micro-steps of the core. -/
abbrev HostCommand (i : Instr) : Prop :=
  i = .init ∨ i = .final ∨ i = .status ∨ (∃ byte, i = .data byte) ∨ ∃ idx, i = .read idx

/-- What a rule of `40_round_table.md` says of the round micro-step `i`, number `r`, with the nonlinear
function `f`, the word index `g`, the rotate amount `rot`, the additive constant `k` and the packed table
entry of the rule: the entry is in the table, and in every state that selects it the micro-step completes,
with these values and this frame. -/
def RoundRule (i : Instr) (r : Nat) (f : Word → Word → Word → Word) (g rot : Nat) (k : Word)
    (packed : BitVec 43) : Prop :=
  packEntry (RT r) = packed ∧
  ∀ s : State, s.ph = .compD ∨ s.ph = .compP1 ∨ s.ph = .compP2 → s.rc.toNat = r →
    ∃ t, exec i s = .next t ∧
      t.w.a = s.w.d ∧
      t.w.b = add32 s.w.b
        (rotl32 (add32x4 s.w.a (f s.w.b s.w.c s.w.d) (s.B.word (BitVec.ofNat 4 g)) k) rot) ∧
      t.w.c = s.w.b ∧ t.w.d = s.w.c ∧ t.rc.toNat = r + 1 ∧
      t.ph = s.ph ∧ t.H = s.H ∧ SameBytes s t ∧ t.len = s.len ∧ SameRecord s t ∧ SameLog s t

end Sys2Proof.Statements

open Sys2Proof.Statements

/-- The command decoder on all 1024 words. For every 10-bit word: 0x001 is INIT, 0x002 FINAL, 0x003 STATUS,
bits 9:8 = 01 is DATA of bits 7:0, bits 9:4 = 100000 is READ of bits 3:0, and every other word is
reserved. Each clause stands alone, so no order of tests is used; the decoder takes nothing but the
word. Formalises R61. -/
def Obligations.CommandWordsDecodeByTheDecoder : Prop :=
  ∀ cmd : CommandWord,
    (cmd.toNat = 0x001 → decodeCommand cmd = .instr .init) ∧
    (cmd.toNat = 0x002 → decodeCommand cmd = .instr .final) ∧
    (cmd.toNat = 0x003 → decodeCommand cmd = .instr .status) ∧
    (cmd.toNat / 256 = 0b01 →
      decodeCommand cmd = .instr (.data (BitVec.ofNat 8 (cmd.toNat % 256)))) ∧
    (cmd.toNat / 16 = 0b100000 →
      decodeCommand cmd = .instr (.read (BitVec.ofNat 4 (cmd.toNat % 16)))) ∧
    (cmd.toNat ≠ 0x001 ∧ cmd.toNat ≠ 0x002 ∧ cmd.toNat ≠ 0x003 ∧ cmd.toNat / 256 ≠ 0b01 ∧
      cmd.toNat / 16 ≠ 0b100000 → decodeCommand cmd = .reserved)

/-- The reserved command words are exactly the listed ranges. A command word is refused by the decoder as
reserved if and only if it is 0x000, or in 0x004 to 0x0FF, or in 0x210 to 0x2FF, or in 0x300 to 0x3FF.
Derived from 30_encoding.md section 1 (R60, its ranges of reserved words). -/
def Obligations.ReservedWordsAreTheListedRanges : Prop :=
  ∀ cmd : CommandWord, decodeCommand cmd = .reserved ↔
    (cmd.toNat = 0 ∨ (0x004 ≤ cmd.toNat ∧ cmd.toNat ≤ 0x0FF) ∨
      (0x210 ≤ cmd.toNat ∧ cmd.toNat ≤ 0x2FF) ∨ (0x300 ≤ cmd.toNat ∧ cmd.toNat ≤ 0x3FF))

/-- The sequencer's decode of every {PH, RC}. For every phase and every RC: a phase 0, 1, 7 with RC = 0
waits for a command; PAD1 and PAD2 with RC = 0 select FMT1 and FMT2; a compression phase selects round
RC when RC < 64 and ACC when RC = 64 (the table of R64); and every other pair, RC from 65 to 127 or RC
non-zero outside a compression phase, has no micro-step and is refused by name (R65). Formalises R65. -/
def Obligations.SequencerDecodesByTheTable : Prop :=
  ∀ (p : Phase) (rc : BitVec 7),
    (p = .idle ∨ p = .absorb ∨ p = .done → rc.toNat = 0 →
      decodeSequencer (phaseCode p) rc = .waits) ∧
    (p = .pad1 → rc.toNat = 0 → decodeSequencer (phaseCode p) rc = .instr .fmt1) ∧
    (p = .pad2 → rc.toNat = 0 → decodeSequencer (phaseCode p) rc = .instr .fmt2) ∧
    (p = .compD ∨ p = .compP1 ∨ p = .compP2 → rc.toNat < 64 →
      decodeSequencer (phaseCode p) rc = .instr (roundInstr rc.toNat)) ∧
    (p = .compD ∨ p = .compP1 ∨ p = .compP2 → rc.toNat = 64 →
      decodeSequencer (phaseCode p) rc = .instr .acc) ∧
    (65 ≤ rc.toNat ∨ (rc.toNat ≠ 0 ∧ ¬ (p = .compD ∨ p = .compP1 ∨ p = .compP2)) →
      decodeSequencer (phaseCode p) rc = .unreachable)

/-- Decoding the word of an instruction gives the instruction back, for all 72 of them. For every well-
formed instruction, with every value of its operand, the decoder reads the instruction back from the
word the encoder writes for it: no bit of an operand is dropped and no two instructions share a word.
(For a round or ACC the encoder writes PH = 4, the model's choice, log entry 11.) Derived from
30_encoding.md section 1; 30_encoding.md section 3; opcode_table.json. -/
def Obligations.DecodeOfEncodeIsTheInstruction : Prop :=
  ∀ i : Instr, i.wellFormed = true → decode (encode i) = .instr i

/-- Every word that decodes to an instruction is that instruction's word. A command word that decodes to an
instruction is the word the encoder writes for it; a sequencer state that decodes to a micro-step is the
word the encoder writes for it, but for PH, which in a compression phase may be 4, 5 or 6 (the encoder
writes 4, the model's choice, log entry 11). So no legal bit is ignored by the decoder. Derived from
30_encoding.md section 1; 30_encoding.md section 3. -/
def Obligations.LegalWordsEncodeBack : Prop :=
  (∀ (cmd : CommandWord) (i : Instr), decodeCommand cmd = .instr i → encode i = .command cmd) ∧
  (∀ (ph : BitVec 3) (rc : BitVec 7) (i : Instr), decodeSequencer ph rc = .instr i →
    encode i = .sequencer (if ph = 5#3 ∨ ph = 6#3 then 4#3 else ph) rc)

/-- A few words written out bit by bit from the spec's encodings. The words 0000000001, 0000000010,
0000000011, 0101100001, 1000001111 read as INIT, FINAL, STATUS, DATA 0x61, READ 15; 0000000000 and
1000010000 are reserved; PH 010 and 011 with RC 0 read as FMT1 and FMT2; PH 101 with RC 0010001 reads as
RND17, PH 110 with RC 0111111 as RND63, PH 100 with RC 1000000 as ACC; PH 100 with RC 1000001 is
unreachable. Derived from 30_encoding.md section 1; 30_encoding.md section 3; 95_test_vectors.md section
7.1. -/
def Obligations.WrittenWordsReadAsTheSpecSays : Prop :=
  decode (.command 0b0000000001#10) = .instr .init ∧
  decode (.command 0b0000000010#10) = .instr .final ∧
  decode (.command 0b0000000011#10) = .instr .status ∧
  decode (.command 0b0101100001#10) = .instr (.data 0x61#8) ∧
  decode (.command 0b1000001111#10) = .instr (.read 15#4) ∧
  decode (.command 0b0000000000#10) = .reserved ∧
  decode (.command 0b1000010000#10) = .reserved ∧
  decode (.sequencer 0b010#3 0b0000000#7) = .instr .fmt1 ∧
  decode (.sequencer 0b011#3 0b0000000#7) = .instr .fmt2 ∧
  decode (.sequencer 0b101#3 0b0010001#7) = .instr .rnd17 ∧
  decode (.sequencer 0b110#3 0b0111111#7) = .instr .rnd63 ∧
  decode (.sequencer 0b100#3 0b1000000#7) = .instr .acc ∧
  decode (.sequencer 0b100#3 0b1000001#7) = .unreachable

/-- The packed round-table word. For every round-table entry, of the table or not, the packed 43-bit word is
fn * 2^41 + g * 2^37 + s * 2^32 + k with fn 0, 1, 2, 3 for F, G, H, I, every 43-bit value is the packing
of one entry, RT[0] packs to 0x007D76AA478 with fields 0, 0, 7, 0xD76AA478, and RT[63] to 0x735EB86D391
with fields 3, 9, 21, 0xEB86D391. Formalises R63. -/
def Obligations.PackedEntryIsTheSumOfItsFields : Prop :=
  (∀ e : RoundEntry, (packEntry e).toNat =
    (match e.fn with | .F => 0 | .G => 1 | .H => 2 | .I => 3) * 2 ^ 41 + e.g.toNat * 2 ^ 37 +
      e.s.toNat * 2 ^ 32 + e.k.toNat) ∧
  (∀ v : BitVec 43, ∃ e : RoundEntry, packEntry e = v) ∧
  (RT 0 = ⟨.F, 0#4, 7#5, 0xD76AA478#32⟩ ∧ packEntry (RT 0) = 0x007D76AA478#43) ∧
  (RT 63 = ⟨.I, 9#4, 21#5, 0xEB86D391#32⟩ ∧ packEntry (RT 63) = 0x735EB86D391#43)

/-- The selector and the word index of every round are what the formulas give. For every round index r below
64 and all words b, c, d: the entry's selector value is r div 16, the function it selects is NL(r),
which is F for r < 16, G for r < 32, H for r < 48, I for r < 64 (R15), the entry's word index is r,
(5r+1) mod 16, (3r+5) mod 16, 7r mod 16 in the four groups, and the rotate amount is 4 to 23. Formalises
R15. -/
def Obligations.RoundTableFollowsTheFormulas : Prop :=
  ∀ r : Nat, r < 64 →
    (mixCode (RT r).fn).toNat = r / 16 ∧
    (∀ b c d : Word, mix (RT r).fn b c d = nonlinear r b c d ∧
      (r < 16 → nonlinear r b c d = mixF b c d) ∧
      (16 ≤ r → r < 32 → nonlinear r b c d = mixG b c d) ∧
      (32 ≤ r → r < 48 → nonlinear r b c d = mixH b c d) ∧
      (48 ≤ r → nonlinear r b c d = mixI b c d)) ∧
    (RT r).g.toNat =
      (if r < 16 then r else if r < 32 then (5 * r + 1) % 16
      else if r < 48 then (3 * r + 5) % 16 else (7 * r) % 16) ∧
    4 ≤ (RT r).s.toNat ∧ (RT r).s.toNat ≤ 23

/-- add32 is the sum modulo 2^32, in any order and grouping. For all words: add32 of two is their sum modulo
2^32 and of four the sum of the four reduced once; add32 is commutative and associative and the four-
word sum is the same by twos; it answers a word and nothing else (no carry, no flag); 0xFFFFFFFF + 1 =
0, 0x80000000 + 0x80000000 = 0, x + 0 = x. Formalises R8. -/
def Obligations.AddWrapsSilently : Prop :=
  ∀ w x y z : Word,
    (add32 x y).toNat = (x.toNat + y.toNat) % 2 ^ 32 ∧
    (add32x4 w x y z).toNat = (w.toNat + x.toNat + y.toNat + z.toNat) % 2 ^ 32 ∧
    add32 x y = add32 y x ∧ add32 (add32 x y) z = add32 x (add32 y z) ∧
    add32x4 w x y z = add32 w (add32 x (add32 y z)) ∧
    add32 0xFFFFFFFF#32 1#32 = 0#32 ∧ add32 0x80000000#32 0x80000000#32 = 0#32 ∧
    add32 x 0#32 = x

/-- rotl32 moves every bit left by the amount modulo 32. For every word x and every amount n, bit i of x is
bit (i + n) mod 32 of rotl32(x, n), for each of the 32 bits; so an amount that is a multiple of 32
changes nothing, and as a number the result is x * 2^e + x div 2^(32 - e) modulo 2^32 with e = n mod 32.
Formalises R9. -/
def Obligations.RotateMovesEveryBit : Prop :=
  ∀ (x : Word) (n : Nat),
    (∀ i : Nat, i < 32 → (rotl32 x n).getLsbD ((i + n) % 32) = x.getLsbD i) ∧
    (n % 32 = 0 → rotl32 x n = x) ∧
    (n % 32 ≠ 0 → (rotl32 x n).toNat =
      (x.toNat * 2 ^ (n % 32) + x.toNat / 2 ^ (32 - n % 32)) % 2 ^ 32)

/-- The four nonlinear functions at every bit position. At every bit position: F is the bit of c where b is
1 and of d where b is 0; G is the bit of b where d is 1 and of c where d is 0; H is the parity of the
three bits; I is the bit of c flipped where b is 1 or d is 0. (The formulas are the spec's, which marks
them as from general knowledge; log entry 15.) The words the four rules give as examples are among the
cases. Formalises R11, R12, R13, R14. -/
def Obligations.MixFunctionsActBitByBit : Prop :=
  ∀ (b c d : Word) (i : Nat), i < 32 →
    (mixF b c d).getLsbD i = (if b.getLsbD i then c.getLsbD i else d.getLsbD i) ∧
    (mixG b c d).getLsbD i = (if d.getLsbD i then b.getLsbD i else c.getLsbD i) ∧
    (mixH b c d).getLsbD i = ((b.getLsbD i != c.getLsbD i) != d.getLsbD i) ∧
    (mixI b c d).getLsbD i =
      (if b.getLsbD i ∨ d.getLsbD i = false then !c.getLsbD i else c.getLsbD i)

/-- le32, bytes32 and bytes64. le32 of four bytes is b0 + 2^8 b1 + 2^16 b2 + 2^24 b3; bytes32 is its inverse
in both directions; bytes64 lists the eight bytes of a 64-bit number, byte n being the number div 2^(8n)
modulo 256. Formalises R17. -/
def Obligations.WordsAndBytesAreLittleEndian : Prop :=
  (∀ b0 b1 b2 b3 : Byte, (le32 b0 b1 b2 b3).toNat =
    b0.toNat + 2 ^ 8 * b1.toNat + 2 ^ 16 * b2.toNat + 2 ^ 24 * b3.toNat ∧
    bytes32 (le32 b0 b1 b2 b3) = [b0, b1, b2, b3]) ∧
  (∀ v : Word, le32 (byteOf v 0) (byteOf v 1) (byteOf v 2) (byteOf v 3) = v ∧
    bytes32 v = [BitVec.ofNat 8 v.toNat, BitVec.ofNat 8 (v.toNat / 2 ^ 8),
      BitVec.ofNat 8 (v.toNat / 2 ^ 16), BitVec.ofNat 8 (v.toNat / 2 ^ 24)]) ∧
  (∀ v : BitVec 64, (bytes64 v).length = 8 ∧ ∀ n : Nat, n < 8 →
    ((bytes64 v).getD n 0).toNat = v.toNat / 2 ^ (8 * n) % 256)

/-- Block words are read little-endian at address 4i. For every buffer and every word index i, M[i] is B[4i]
+ 2^8 B[4i+1] + 2^16 B[4i+2] + 2^24 B[4i+3], and byte n of M[i] is the buffer's byte 4i + n. Formalises
R44. -/
def Obligations.BlockWordsAreLittleEndian : Prop :=
  ∀ (m : Memory) (i : BitVec 4),
    (m.word i).toNat = (m.read (4 * i.toNat)).toNat + 2 ^ 8 * (m.read (4 * i.toNat + 1)).toNat +
      2 ^ 16 * (m.read (4 * i.toNat + 2)).toNat + 2 ^ 24 * (m.read (4 * i.toNat + 3)).toNat ∧
    ∀ n : Nat, n < 4 → (m.word i).toNat / 2 ^ (8 * n) % 256 = (m.read (4 * i.toNat + n)).toNat

/-- INIT in every phase in which a command is accepted. In every state that is not busy INIT completes. With
ERR = 0 it loads the four IV words into H, clears LEN, and with it FILL, and RC and goes to ABSORB, so
that DV is 0, whatever the phase was, and leaves a, b, c, d, every byte of B, the fault record, the
host's events, the responses and the draw count as they were; a second INIT then changes nothing. With
ERR = 1 nothing changes at all. Formalises R155. -/
def Obligations.InitStartsADigest : Prop :=
  ∀ s : State, s.busy = false → ∃ t, exec .init s = .next t ∧
    (s.err = true → t = s) ∧
    (s.err = false →
      (t.H.h0 = 0x67452301#32 ∧ t.H.h1 = 0xEFCDAB89#32 ∧ t.H.h2 = 0x98BADCFE#32 ∧
        t.H.h3 = 0x10325476#32) ∧
      t.len = 0#61 ∧ t.fill = 0#6 ∧ t.rc = 0#7 ∧ t.ph = .absorb ∧ t.dv = false ∧
      exec .init t = .next t ∧ t.w = s.w ∧ SameBytes s t ∧ SameRecord s t ∧ SameLog s t)

/-- DATA in ABSORB writes one byte of the block and counts it. With ERR = 0, in ABSORB and below the length
limit, DATA completes for every byte value: the byte goes to address FILL = LEN mod 64, every other byte
of B stays, LEN goes up by 1; if FILL was 63, a, b, c, d take the four words of H, RC becomes 0 and the
phase COMP_D, else these stay; H, the fault record and the rest stay. After a byte 63, with no reset
among the host's events, 65 steps lead to ABSORB with FILL = 0. Outside ABSORB, or at the limit, only
the fault record is written (PhaseViolation, LengthOverflow), and with ERR = 1 nothing is. Formalises
R156. -/
def Obligations.DataAppendsAByte : Prop :=
  ∀ (s : State) (byte : Byte),
    (s.err = false → s.ph = .absorb → s.len.toNat ≠ 2 ^ 61 - 1 → s.B.wf →
      ∃ t, exec (.data byte) s = .next t ∧
        s.fill.toNat = s.len.toNat % 64 ∧
        t.B.read s.fill.toNat = byte ∧
        (∀ a, a ≠ s.fill.toNat → t.B.read a = s.B.read a) ∧
        t.len.toNat = s.len.toNat + 1 ∧
        (s.fill.toNat = 63 → t.w = ⟨s.H.h0, s.H.h1, s.H.h2, s.H.h3⟩ ∧ t.rc = 0#7 ∧ t.ph = .compD ∧
          t.busy = true ∧ (HostEvent.reset ∉ s.host →
            ∃ u, steps 65 t = .next u ∧ u.ph = .absorb ∧ u.fill = 0#6)) ∧
        (s.fill.toNat ≠ 63 → t.w = s.w ∧ t.rc = s.rc ∧ t.ph = .absorb) ∧
        t.H = s.H ∧ SameRecord s t ∧ SameLog s t) ∧
    (s.err = false → s.ph = .idle ∨ s.ph = .done → exec (.data byte) s =
      .next { s with err := true, ecode := 2#3 }) ∧
    (s.err = false → s.ph = .absorb → s.len.toNat = 2 ^ 61 - 1 → exec (.data byte) s =
      .next { s with err := true, ecode := 3#3 }) ∧
    (s.err = true → s.busy = false → exec (.data byte) s = .next s)

/-- FINAL in ABSORB goes to PAD1 and writes nothing else. With ERR = 0 in ABSORB, FINAL completes for every
LEN: the phase becomes PAD1 and the core busy; H, a, b, c, d, every byte of B, LEN, RC, the fault record
and the rest stay; with RC = 0 and no reset among the host's events, 66 steps, or 132 when LEN mod 64 is
56 or more, lead to DONE. In IDLE or DONE only the fault record is written (PhaseViolation), and with
ERR = 1 nothing is. Formalises R157. -/
def Obligations.FinalEndsTheMessage : Prop :=
  ∀ s : State,
    (s.err = false → s.ph = .absorb → ∃ t, exec .final s = .next t ∧ t.ph = .pad1 ∧ t.busy = true ∧
      t.H = s.H ∧ t.w = s.w ∧ SameBytes s t ∧ t.len = s.len ∧ t.rc = s.rc ∧ SameRecord s t ∧
      SameLog s t ∧ (s.rc = 0#7 → HostEvent.reset ∉ s.host →
        ∃ u, steps (if s.len.toNat % 64 ≤ 55 then 66 else 132) t = .next u ∧ u.ph = .done)) ∧
    (s.err = false → s.ph = .idle ∨ s.ph = .done → exec .final s =
      .next { s with err := true, ecode := 2#3 }) ∧
    (s.err = true → s.busy = false → exec .final s = .next s)

/-- STATUS answers {ERR, ECODE, DV, PH} and changes no register. In every state that is not busy, also with
ERR = 1, STATUS completes: one byte is delivered, with ERR in bit 7, ECODE in bits 6:4, DV (PH = DONE)
in bit 3 and the number of the phase, which is 0, 1 or 7, in bits 2:0; every register and every byte of
B stays. Formalises R158. -/
def Obligations.StatusAnswersTheStatusByte : Prop :=
  ∀ s : State, s.busy = false → ∃ t b, exec .status s = .next t ∧ t.rsp = s.rsp ++ [b] ∧
    b.toNat = 128 * s.err.toNat + 16 * s.ecode.toNat + 8 * (if s.ph = .done then 1 else 0) +
      (phaseCode s.ph).toNat ∧
    (b.toNat % 8 = 0 ∨ b.toNat % 8 = 1 ∨ b.toNat % 8 = 7) ∧
    t.H = s.H ∧ t.w = s.w ∧ SameBytes s t ∧ t.len = s.len ∧ t.ph = s.ph ∧ t.rc = s.rc ∧
    SameRecord s t ∧ t.host = s.host ∧ t.draws = s.draws

/-- READ in DONE answers the digest byte of its index. With ERR = 0 in DONE, READ completes for every index
0 to 15 and delivers byte (H[idx div 4] >> 8 (idx mod 4)) modulo 256; every register and every byte of B
stays. With ERR = 0 in IDLE or ABSORB, PhaseViolation (code 2) is recorded, one byte that nothing fixes
is delivered, and every other register and byte stays. With ERR = 1, one byte that nothing fixes is
delivered and every register and byte stays. Formalises R168. -/
def Obligations.ReadAnswersADigestByte : Prop :=
  ∀ (s : State) (idx : BitVec 4),
    (s.err = false → s.ph = .done → ∃ t b, exec (.read idx) s = .next t ∧ t.rsp = s.rsp ++ [b] ∧
      b.toNat = (([s.H.h0, s.H.h1, s.H.h2, s.H.h3].getD (idx.toNat / 4) 0).toNat /
        2 ^ (8 * (idx.toNat % 4))) % 256 ∧
      t.H = s.H ∧ t.w = s.w ∧ SameBytes s t ∧ t.len = s.len ∧ t.ph = s.ph ∧ t.rc = s.rc ∧
      SameRecord s t ∧ t.host = s.host ∧ t.draws = s.draws) ∧
    (s.err = false → s.ph = .idle ∨ s.ph = .absorb → ∃ t b, exec (.read idx) s = .next t ∧
      t.rsp = s.rsp ++ [b] ∧ t.err = true ∧ t.ecode = 2#3 ∧
      t.H = s.H ∧ t.w = s.w ∧ SameBytes s t ∧ t.len = s.len ∧ t.ph = s.ph ∧ t.rc = s.rc ∧
      t.host = s.host) ∧
    (s.err = true → s.busy = false → ∃ t b, exec (.read idx) s = .next t ∧ t.rsp = s.rsp ++ [b] ∧
      SameRegisters s t ∧ t.host = s.host)

/-- PhaseViolation is raised in exactly the pairs of the table. With ERR = 0 and the core not busy, a host
command answers a next state whose fault record is {1, 2} exactly when the table does not allow it in
that phase: DATA and FINAL in IDLE or DONE, READ in IDLE or ABSORB; INIT and STATUS never. Where the
table allows it, no fault is recorded, but for DATA at the length limit (LengthOverflow, code 3).
Formalises R174. -/
def Obligations.PhaseViolationsFollowTheTable : Prop :=
  ∀ (s : State) (i : Instr), s.busy = false → s.err = false → s.ecode = 0#3 → HostCommand i →
    ∃ t, exec i s = .next t ∧
      ((t.err = true ∧ t.ecode = 2#3) ↔
        ((∃ byte, i = .data byte) ∨ i = .final) ∧ (s.ph = .idle ∨ s.ph = .done) ∨
        (∃ idx, i = .read idx) ∧ (s.ph = .idle ∨ s.ph = .absorb)) ∧
      ((t.err = true ∧ t.ecode = 3#3) ↔
        (∃ byte, i = .data byte) ∧ s.ph = .absorb ∧ s.len.toNat = 2 ^ 61 - 1) ∧
      ((t.err = false ∧ t.ecode = 0#3) ∨ (t.err = true ∧ (t.ecode = 2#3 ∨ t.ecode = 3#3)))

/-- DATA at the longest length faults and writes nothing. With ERR = 0 in ABSORB, DATA raises LengthOverflow
exactly when LEN = 2^61 - 1, where 8 (LEN + 1) = 2^64: only the fault record is written, {1, 3}. For
every shorter length no fault is raised, and the bit length of the longer message still fits 64 bits.
Formalises R175. -/
def Obligations.LengthOverflowIsRefused : Prop :=
  ∀ (s : State) (byte : Byte), s.err = false → s.ph = .absorb →
    (s.len.toNat = 2 ^ 61 - 1 → 8 * (s.len.toNat + 1) = 2 ^ 64 ∧
      ∃ t, exec (.data byte) s = .next t ∧ t.err = true ∧ t.ecode = 3#3 ∧
        t.H = s.H ∧ t.w = s.w ∧ SameBytes s t ∧ t.len = s.len ∧ t.ph = s.ph ∧ t.rc = s.rc ∧
        SameLog s t) ∧
    (s.len.toNat ≠ 2 ^ 61 - 1 → 8 * (s.len.toNat + 1) < 2 ^ 64 ∧
      ∃ t, exec (.data byte) s = .next t ∧ t.err = false ∧ t.ecode = s.ecode ∧
        t.bitlen.toNat = 8 * (s.len.toNat + 1))

/-- With ERR = 1 only STATUS has its effect. With ERR = 1 and the core not busy: INIT, DATA and FINAL
complete with no change at all; READ, in any phase, delivers one byte that nothing fixes and changes no
register; STATUS delivers the status byte; a reserved word that is presented is taken and ignored. None
of the states after is busy, so commands keep being accepted. ERR, ECODE and the phase stay, so no such
state is the end of a run. And no step from a state of the invariant leads to a core that is faulted and
busy. Formalises R177. -/
def Obligations.FrozenCoreIgnoresCommands : Prop :=
  (∀ s : State, s.err = true → s.busy = false →
    exec .init s = .next s ∧ exec .final s = .next s ∧
    (∀ byte : Byte, exec (.data byte) s = .next s) ∧
    (∀ idx : BitVec 4, ∃ b t, exec (.read idx) s = .next t ∧ t.rsp = s.rsp ++ [b] ∧
      SameRegisters s t ∧ t.host = s.host ∧ t.ready = true ∧ t.runComplete = false) ∧
    (∃ t, exec .status s = .next t ∧ t.rsp = s.rsp ++ [s.statusByte] ∧ SameRegisters s t ∧
      t.ready = true) ∧
    (∀ (cmd : CommandWord) (rest : List HostEvent), s.host = .command cmd :: rest → s.rc = 0#7 →
      decodeCommand cmd = .reserved → step s = .next { s with host := rest }) ∧
    s.ready = true ∧ s.runComplete = false) ∧
  (∀ s t : State, s.Inv → step s = .next t → t.err = true → t.ready = true)

/-- A command presented while the core is busy waits. While BUSY = 1 (PAD1, PAD2 or a compression phase) a
host command has no effect at all, and a step with a command presented leaves that command first among
the host's events. While BUSY = 0 a presented command, legal or reserved, is taken by the step; if ERR =
1 the frozen rule applies to it before anything else (a reserved word then raises nothing), and if ERR =
0 a reserved word raises IllegalCommand. A word that decodes to a command has that command's own effect
and no other. Formalises R154. -/
def Obligations.BusyCoreMakesCommandsWait : Prop :=
  (∀ (s : State) (i : Instr), s.busy = true → HostCommand i → exec i s = .next s) ∧
  (∀ (s t : State) (cmd : CommandWord) (rest : List HostEvent), s.busy = true →
    s.host = .command cmd :: rest → step s = .next t → t.host = s.host) ∧
  (∀ (s : State) (cmd : CommandWord) (rest : List HostEvent), s.busy = false → s.rc = 0#7 →
    s.host = .command cmd :: rest → ∃ t, step s = .next t ∧ t.host = rest ∧
      (s.err = true → SameRegisters s t) ∧
      (s.err = false → decodeCommand cmd = .reserved → t.err = true ∧ t.ecode = 1#3) ∧
      (∀ i, decodeCommand cmd = .instr i → exec i { s with host := rest } = .next t))

/-- A step that raises a fault changes nothing but the fault record. Whatever step takes ERR from 0 to 1: H,
a, b, c, d, every byte of B, LEN, PH and RC keep their values, ECODE becomes 1, 2 or 3, the core was not
busy, and at most one response byte was delivered. Formalises R176. -/
def Obligations.FaultsLeaveOnlyTheRecord : Prop :=
  ∀ s t : State, step s = .next t → s.err = false → t.err = true →
    t.H = s.H ∧ t.w = s.w ∧ SameBytes s t ∧ t.len = s.len ∧ t.ph = s.ph ∧ t.rc = s.rc ∧
    (t.ecode = 1#3 ∨ t.ecode = 2#3 ∨ t.ecode = 3#3) ∧ s.busy = false ∧
    (t.rsp = s.rsp ∨ ∃ b, t.rsp = s.rsp ++ [b])

/-- No micro-step touches the fault record. When FMT1, FMT2, a round or ACC answers a next state, ERR and
ECODE are as before, for every value of every register and every byte of B; and none of them ever
answers a fault. Formalises R180. -/
def Obligations.DatapathRaisesNothing : Prop :=
  ∀ (s : State) (i : Instr), ¬ HostCommand i →
    (∀ t, exec i s = .next t → t.err = s.err ∧ t.ecode = s.ecode) ∧
    (∀ r, exec i s ≠ .fault r)

/-- FMT1 formats the first padding block for every LEN. In PAD1 with RC = 0, FMT1 completes for every LEN,
with f = LEN mod 64: bytes below f stay, byte f is 0x80, the bytes above are 0, and if f <= 55 bytes 56
to 63 are the bit length 8 LEN, least significant byte first. a, b, c, d take the words of H, RC is 0,
the phase COMP_P1; H, LEN, the fault record and the rest stay; BUSY stays 1. Formalises R138. -/
def Obligations.FirstPaddingBlockIsFormatted : Prop :=
  ∀ s : State, s.ph = .pad1 → s.rc = 0#7 → ∃ t, exec .fmt1 s = .next t ∧
    (∀ j, j < s.len.toNat % 64 → t.B.read j = s.B.read j) ∧
    t.B.read (s.len.toNat % 64) = 0x80#8 ∧
    (∀ j, s.len.toNat % 64 < j → j < 64 → (j < 56 ∨ 56 ≤ s.len.toNat % 64) →
      t.B.read j = 0x00#8) ∧
    (s.len.toNat % 64 ≤ 55 → ∀ n, n < 8 →
      (t.B.read (56 + n)).toNat = 8 * s.len.toNat / 2 ^ (8 * n) % 256) ∧
    t.w = ⟨s.H.h0, s.H.h1, s.H.h2, s.H.h3⟩ ∧ t.rc = 0#7 ∧ t.ph = .compP1 ∧ t.busy = true ∧
    t.H = s.H ∧ t.len = s.len ∧ SameRecord s t ∧ SameLog s t

/-- FMT2 formats the second padding block for every LEN. In PAD2 with RC = 0, FMT2 completes for every LEN
and every old content of B: bytes 0 to 55 are 0 and bytes 56 to 63 the bit length 8 LEN, least
significant byte first. a, b, c, d take the words of H, RC is 0, the phase COMP_P2; H, LEN, the fault
record and the rest stay. And a step into PAD2 comes only from ACC in COMP_P1 when FILL >= 56.
Formalises R139. -/
def Obligations.SecondPaddingBlockIsFormatted : Prop :=
  (∀ s : State, s.ph = .pad2 → s.rc = 0#7 → ∃ t, exec .fmt2 s = .next t ∧
    (∀ j, j < 56 → t.B.read j = 0x00#8) ∧
    (∀ n, n < 8 → (t.B.read (56 + n)).toNat = 8 * s.len.toNat / 2 ^ (8 * n) % 256) ∧
    t.w = ⟨s.H.h0, s.H.h1, s.H.h2, s.H.h3⟩ ∧ t.rc = 0#7 ∧ t.ph = .compP2 ∧ t.busy = true ∧
    t.H = s.H ∧ t.len = s.len ∧ SameRecord s t ∧ SameLog s t) ∧
  (∀ s t : State, step s = .next t → t.ph = .pad2 → s.ph = .compP1 ∧ s.rc = 64#7 ∧
    56 ≤ s.fill.toNat)

/-- RND00 to RND07, with the constants of their rules. For each of RND00, RND01, RND02, RND03, RND04, RND05,
RND06 and RND07: in every state with a compression phase and RC its number, the micro-step completes: t
is the sum modulo 2^32 of a, the function of b, c, d, the block word M[g] and the constant k written in
its rule; the new b is b plus t rotated left by s; the new a, c, d are the old d, b, c; RC goes up by 1;
the phase, H, every byte of B, LEN, the fault record and the rest stay. The table entry packs to the
43-bit word written in the rule. Formalises R70, R71, R72, R73, R74, R75, R76, R77. -/
def Obligations.FirstFRoundsAreTheirRules : Prop :=
  RoundRule .rnd00 0 mixF 0 7 0xD76AA478#32 0x007D76AA478#43 ∧
  RoundRule .rnd01 1 mixF 1 12 0xE8C7B756#32 0x02CE8C7B756#43 ∧
  RoundRule .rnd02 2 mixF 2 17 0x242070DB#32 0x051242070DB#43 ∧
  RoundRule .rnd03 3 mixF 3 22 0xC1BDCEEE#32 0x076C1BDCEEE#43 ∧
  RoundRule .rnd04 4 mixF 4 7 0xF57C0FAF#32 0x087F57C0FAF#43 ∧
  RoundRule .rnd05 5 mixF 5 12 0x4787C62A#32 0x0AC4787C62A#43 ∧
  RoundRule .rnd06 6 mixF 6 17 0xA8304613#32 0x0D1A8304613#43 ∧
  RoundRule .rnd07 7 mixF 7 22 0xFD469501#32 0x0F6FD469501#43

/-- RND08 to RND15, with the constants of their rules. For each of RND08, RND09, RND10, RND11, RND12, RND13,
RND14 and RND15: in every state with a compression phase and RC its number, the micro-step completes: t
is the sum modulo 2^32 of a, the function of b, c, d, the block word M[g] and the constant k written in
its rule; the new b is b plus t rotated left by s; the new a, c, d are the old d, b, c; RC goes up by 1;
the phase, H, every byte of B, LEN, the fault record and the rest stay. The table entry packs to the
43-bit word written in the rule. Formalises R78, R79, R80, R81, R82, R83, R84, R85. -/
def Obligations.SecondFRoundsAreTheirRules : Prop :=
  RoundRule .rnd08 8 mixF 8 7 0x698098D8#32 0x107698098D8#43 ∧
  RoundRule .rnd09 9 mixF 9 12 0x8B44F7AF#32 0x12C8B44F7AF#43 ∧
  RoundRule .rnd10 10 mixF 10 17 0xFFFF5BB1#32 0x151FFFF5BB1#43 ∧
  RoundRule .rnd11 11 mixF 11 22 0x895CD7BE#32 0x176895CD7BE#43 ∧
  RoundRule .rnd12 12 mixF 12 7 0x6B901122#32 0x1876B901122#43 ∧
  RoundRule .rnd13 13 mixF 13 12 0xFD987193#32 0x1ACFD987193#43 ∧
  RoundRule .rnd14 14 mixF 14 17 0xA679438E#32 0x1D1A679438E#43 ∧
  RoundRule .rnd15 15 mixF 15 22 0x49B40821#32 0x1F649B40821#43

/-- RND16 to RND23, with the constants of their rules. For each of RND16, RND17, RND18, RND19, RND20, RND21,
RND22 and RND23: in every state with a compression phase and RC its number, the micro-step completes: t
is the sum modulo 2^32 of a, the function of b, c, d, the block word M[g] and the constant k written in
its rule; the new b is b plus t rotated left by s; the new a, c, d are the old d, b, c; RC goes up by 1;
the phase, H, every byte of B, LEN, the fault record and the rest stay. The table entry packs to the
43-bit word written in the rule. Formalises R86, R87, R88, R89, R90, R91, R92, R93. -/
def Obligations.FirstGRoundsAreTheirRules : Prop :=
  RoundRule .rnd16 16 mixG 1 5 0xF61E2562#32 0x225F61E2562#43 ∧
  RoundRule .rnd17 17 mixG 6 9 0xC040B340#32 0x2C9C040B340#43 ∧
  RoundRule .rnd18 18 mixG 11 14 0x265E5A51#32 0x36E265E5A51#43 ∧
  RoundRule .rnd19 19 mixG 0 20 0xE9B6C7AA#32 0x214E9B6C7AA#43 ∧
  RoundRule .rnd20 20 mixG 5 5 0xD62F105D#32 0x2A5D62F105D#43 ∧
  RoundRule .rnd21 21 mixG 10 9 0x02441453#32 0x34902441453#43 ∧
  RoundRule .rnd22 22 mixG 15 14 0xD8A1E681#32 0x3EED8A1E681#43 ∧
  RoundRule .rnd23 23 mixG 4 20 0xE7D3FBC8#32 0x294E7D3FBC8#43

/-- RND24 to RND31, with the constants of their rules. For each of RND24, RND25, RND26, RND27, RND28, RND29,
RND30 and RND31: in every state with a compression phase and RC its number, the micro-step completes: t
is the sum modulo 2^32 of a, the function of b, c, d, the block word M[g] and the constant k written in
its rule; the new b is b plus t rotated left by s; the new a, c, d are the old d, b, c; RC goes up by 1;
the phase, H, every byte of B, LEN, the fault record and the rest stay. The table entry packs to the
43-bit word written in the rule. Formalises R94, R95, R96, R97, R98, R99, R100, R101. -/
def Obligations.SecondGRoundsAreTheirRules : Prop :=
  RoundRule .rnd24 24 mixG 9 5 0x21E1CDE6#32 0x32521E1CDE6#43 ∧
  RoundRule .rnd25 25 mixG 14 9 0xC33707D6#32 0x3C9C33707D6#43 ∧
  RoundRule .rnd26 26 mixG 3 14 0xF4D50D87#32 0x26EF4D50D87#43 ∧
  RoundRule .rnd27 27 mixG 8 20 0x455A14ED#32 0x314455A14ED#43 ∧
  RoundRule .rnd28 28 mixG 13 5 0xA9E3E905#32 0x3A5A9E3E905#43 ∧
  RoundRule .rnd29 29 mixG 2 9 0xFCEFA3F8#32 0x249FCEFA3F8#43 ∧
  RoundRule .rnd30 30 mixG 7 14 0x676F02D9#32 0x2EE676F02D9#43 ∧
  RoundRule .rnd31 31 mixG 12 20 0x8D2A4C8A#32 0x3948D2A4C8A#43

/-- RND32 to RND39, with the constants of their rules. For each of RND32, RND33, RND34, RND35, RND36, RND37,
RND38 and RND39: in every state with a compression phase and RC its number, the micro-step completes: t
is the sum modulo 2^32 of a, the function of b, c, d, the block word M[g] and the constant k written in
its rule; the new b is b plus t rotated left by s; the new a, c, d are the old d, b, c; RC goes up by 1;
the phase, H, every byte of B, LEN, the fault record and the rest stay. The table entry packs to the
43-bit word written in the rule. Formalises R102, R103, R104, R105, R106, R107, R108, R109. -/
def Obligations.FirstHRoundsAreTheirRules : Prop :=
  RoundRule .rnd32 32 mixH 5 4 0xFFFA3942#32 0x4A4FFFA3942#43 ∧
  RoundRule .rnd33 33 mixH 8 11 0x8771F681#32 0x50B8771F681#43 ∧
  RoundRule .rnd34 34 mixH 11 16 0x6D9D6122#32 0x5706D9D6122#43 ∧
  RoundRule .rnd35 35 mixH 14 23 0xFDE5380C#32 0x5D7FDE5380C#43 ∧
  RoundRule .rnd36 36 mixH 1 4 0xA4BEEA44#32 0x424A4BEEA44#43 ∧
  RoundRule .rnd37 37 mixH 4 11 0x4BDECFA9#32 0x48B4BDECFA9#43 ∧
  RoundRule .rnd38 38 mixH 7 16 0xF6BB4B60#32 0x4F0F6BB4B60#43 ∧
  RoundRule .rnd39 39 mixH 10 23 0xBEBFBC70#32 0x557BEBFBC70#43

/-- RND40 to RND47, with the constants of their rules. For each of RND40, RND41, RND42, RND43, RND44, RND45,
RND46 and RND47: in every state with a compression phase and RC its number, the micro-step completes: t
is the sum modulo 2^32 of a, the function of b, c, d, the block word M[g] and the constant k written in
its rule; the new b is b plus t rotated left by s; the new a, c, d are the old d, b, c; RC goes up by 1;
the phase, H, every byte of B, LEN, the fault record and the rest stay. The table entry packs to the
43-bit word written in the rule. Formalises R110, R111, R112, R113, R114, R115, R116, R117. -/
def Obligations.SecondHRoundsAreTheirRules : Prop :=
  RoundRule .rnd40 40 mixH 13 4 0x289B7EC6#32 0x5A4289B7EC6#43 ∧
  RoundRule .rnd41 41 mixH 0 11 0xEAA127FA#32 0x40BEAA127FA#43 ∧
  RoundRule .rnd42 42 mixH 3 16 0xD4EF3085#32 0x470D4EF3085#43 ∧
  RoundRule .rnd43 43 mixH 6 23 0x04881D05#32 0x4D704881D05#43 ∧
  RoundRule .rnd44 44 mixH 9 4 0xD9D4D039#32 0x524D9D4D039#43 ∧
  RoundRule .rnd45 45 mixH 12 11 0xE6DB99E5#32 0x58BE6DB99E5#43 ∧
  RoundRule .rnd46 46 mixH 15 16 0x1FA27CF8#32 0x5F01FA27CF8#43 ∧
  RoundRule .rnd47 47 mixH 2 23 0xC4AC5665#32 0x457C4AC5665#43

/-- RND48 to RND55, with the constants of their rules. For each of RND48, RND49, RND50, RND51, RND52, RND53,
RND54 and RND55: in every state with a compression phase and RC its number, the micro-step completes: t
is the sum modulo 2^32 of a, the function of b, c, d, the block word M[g] and the constant k written in
its rule; the new b is b plus t rotated left by s; the new a, c, d are the old d, b, c; RC goes up by 1;
the phase, H, every byte of B, LEN, the fault record and the rest stay. The table entry packs to the
43-bit word written in the rule. Formalises R118, R119, R120, R121, R122, R123, R124, R125. -/
def Obligations.FirstIRoundsAreTheirRules : Prop :=
  RoundRule .rnd48 48 mixI 0 6 0xF4292244#32 0x606F4292244#43 ∧
  RoundRule .rnd49 49 mixI 7 10 0x432AFF97#32 0x6EA432AFF97#43 ∧
  RoundRule .rnd50 50 mixI 14 15 0xAB9423A7#32 0x7CFAB9423A7#43 ∧
  RoundRule .rnd51 51 mixI 5 21 0xFC93A039#32 0x6B5FC93A039#43 ∧
  RoundRule .rnd52 52 mixI 12 6 0x655B59C3#32 0x786655B59C3#43 ∧
  RoundRule .rnd53 53 mixI 3 10 0x8F0CCC92#32 0x66A8F0CCC92#43 ∧
  RoundRule .rnd54 54 mixI 10 15 0xFFEFF47D#32 0x74FFFEFF47D#43 ∧
  RoundRule .rnd55 55 mixI 1 21 0x85845DD1#32 0x63585845DD1#43

/-- RND56 to RND63, with the constants of their rules. For each of RND56, RND57, RND58, RND59, RND60, RND61,
RND62 and RND63: in every state with a compression phase and RC its number, the micro-step completes: t
is the sum modulo 2^32 of a, the function of b, c, d, the block word M[g] and the constant k written in
its rule; the new b is b plus t rotated left by s; the new a, c, d are the old d, b, c; RC goes up by 1;
the phase, H, every byte of B, LEN, the fault record and the rest stay. The table entry packs to the
43-bit word written in the rule. Formalises R126, R127, R128, R129, R130, R131, R132, R133. -/
def Obligations.SecondIRoundsAreTheirRules : Prop :=
  RoundRule .rnd56 56 mixI 8 6 0x6FA87E4F#32 0x7066FA87E4F#43 ∧
  RoundRule .rnd57 57 mixI 15 10 0xFE2CE6E0#32 0x7EAFE2CE6E0#43 ∧
  RoundRule .rnd58 58 mixI 6 15 0xA3014314#32 0x6CFA3014314#43 ∧
  RoundRule .rnd59 59 mixI 13 21 0x4E0811A1#32 0x7B54E0811A1#43 ∧
  RoundRule .rnd60 60 mixI 4 6 0xF7537E82#32 0x686F7537E82#43 ∧
  RoundRule .rnd61 61 mixI 11 10 0xBD3AF235#32 0x76ABD3AF235#43 ∧
  RoundRule .rnd62 62 mixI 2 15 0x2AD7D2BB#32 0x64F2AD7D2BB#43 ∧
  RoundRule .rnd63 63 mixI 9 21 0xEB86D391#32 0x735EB86D391#43

/-- The round micro-step, generic in r. For every r below 64, in every state with a compression phase and RC
= r, RNDr completes: with RT[r]'s fields and the function and the word index of the ranges of r, (a, b,
c, d) becomes (d, b + rotl(a + f + M[g] + k, s), b, c) from the values before, RC becomes r + 1, the
phase stays, and H, every byte of B, LEN, ERR, ECODE and the rest are not written. Formalises R145. -/
def Obligations.RoundsFollowTheGenericRule : Prop :=
  ∀ (r : Nat) (s : State), r < 64 → compressing s.ph = true → s.rc.toNat = r →
    ∃ t, exec (roundInstr r) s = .next t ∧
      (RT r).g.toNat = wordIndex r ∧
      t.w = ⟨s.w.d,
        add32 s.w.b (rotl32 (add32x4 s.w.a (nonlinear r s.w.b s.w.c s.w.d)
          (s.B.word (BitVec.ofNat 4 (wordIndex r))) (RT r).k) (RT r).s.toNat),
        s.w.b, s.w.c⟩ ∧
      t.rc.toNat = r + 1 ∧ t.ph = s.ph ∧
      t.H = s.H ∧ SameBytes s t ∧ t.len = s.len ∧ SameRecord s t ∧ SameLog s t

/-- ACC adds the working registers into H and takes the branch of R160. In a compression phase with RC = 64,
ACC completes: each word of H becomes its sum with the working register modulo 2^32, independently; a,
b, c, d, every byte of B, LEN, the fault record and the rest stay; RC becomes 0; the phase becomes
ABSORB from COMP_D, DONE from COMP_P2, and from COMP_P1 DONE when LEN mod 64 <= 55 and PAD2 when it is
56 or more. Formalises R146, R160. -/
def Obligations.AccumulateAddsIntoTheDigest : Prop :=
  ∀ s : State, compressing s.ph = true → s.rc = 64#7 → ∃ t, exec .acc s = .next t ∧
    t.H.h0.toNat = (s.H.h0.toNat + s.w.a.toNat) % 2 ^ 32 ∧
    t.H.h1.toNat = (s.H.h1.toNat + s.w.b.toNat) % 2 ^ 32 ∧
    t.H.h2.toNat = (s.H.h2.toNat + s.w.c.toNat) % 2 ^ 32 ∧
    t.H.h3.toNat = (s.H.h3.toNat + s.w.d.toNat) % 2 ^ 32 ∧
    t.rc = 0#7 ∧
    (s.ph = .compD → t.ph = .absorb) ∧
    (s.ph = .compP1 → s.len.toNat % 64 ≤ 55 → t.ph = .done) ∧
    (s.ph = .compP1 → 56 ≤ s.len.toNat % 64 → t.ph = .pad2) ∧
    (s.ph = .compP2 → t.ph = .done) ∧
    t.w = s.w ∧ SameBytes s t ∧ t.len = s.len ∧ SameRecord s t ∧ SameLog s t

/-- A micro-step happens exactly in the states whose {PH, RC} selects it. FMT1, FMT2, a round or ACC answers
a next state exactly when the sequencer's decode of {PH, RC} is that micro-step, and is otherwise
refused under the name microStepNotSelected (the table of R64 and R159 gives it no transition there; the
refusal is the model's form for it, log entry 8). Derived from 30_encoding.md section 3;
43_driver_commands.md section 3. -/
def Obligations.MicroStepsHappenOnlyWhereSelected : Prop :=
  ∀ (s : State) (i : Instr), ¬ HostCommand i →
    ((∃ t, exec i s = .next t) ↔ decodeSequencer (phaseCode s.ph) s.rc = .instr i) ∧
    (decodeSequencer (phaseCode s.ph) s.rc ≠ .instr i →
      exec i s = .refused .microStepNotSelected)

/-- A step runs the micro-step that is selected, or the command that is accepted. With no reset requested
next: when {PH, RC} decodes to an instruction, the step is that instruction in the state in which the
host has let one step go by if waiting was its next event (a command presented stays where it is); when
{PH, RC} decodes to waiting and the host presents a word that decodes to an instruction, the step is
that instruction in the state with the word taken. How the host's events are held is the model's choice,
log entry 1. Derived from 43_driver_commands.md section 3 (R163); 30_encoding.md section 3 (R64). -/
def Obligations.DecodedInstructionRuns : Prop :=
  (∀ (s : State) (i : Instr), s.noReset = true → i.wellFormed = true →
    decodeSequencer (phaseCode s.ph) s.rc = .instr i →
    (∀ rest, s.host = .wait :: rest → step s = exec i { s with host := rest }) ∧
    ((∀ rest, s.host ≠ .wait :: rest) → step s = exec i s)) ∧
  (∀ (s : State) (i : Instr) (cmd : CommandWord) (rest : List HostEvent),
    s.host = .command cmd :: rest → i.wellFormed = true →
    decodeSequencer (phaseCode s.ph) s.rc = .waits → decodeCommand cmd = .instr i →
    step s = exec i { s with host := rest })

/-- An accepted reserved word raises IllegalCommand in every phase. With ERR = 0, in IDLE, ABSORB or DONE
with RC = 0, when the host presents a word in 0x000, 0x004 to 0x0FF, 0x210 to 0x2FF or 0x300 to 0x3FF,
the step takes the word and records {1, 1}: nothing else changes, and the phase plays no part.
Formalises R173. -/
def Obligations.ReservedWordRaisesIllegalCommand : Prop :=
  ∀ (s : State) (cmd : CommandWord) (rest : List HostEvent), s.err = false → s.busy = false →
    s.rc = 0#7 → s.host = .command cmd :: rest →
    (cmd.toNat = 0 ∨ (0x004 ≤ cmd.toNat ∧ cmd.toNat ≤ 0x0FF) ∨
      (0x210 ≤ cmd.toNat ∧ cmd.toNat ≤ 0x2FF) ∨ (0x300 ≤ cmd.toNat ∧ cmd.toNat ≤ 0x3FF)) →
    step s = .next { s with err := true, ecode := 1#3, host := rest }

/-- A requested reset happens in every state and clears PH, RC, ERR and ECODE. When reset is the host's next
event, the step is the reset in every state, busy or not, faulted or not, reachable or not: PH is IDLE,
RC, ERR and ECODE are 0, STATUS would answer 0x00, the core is ready; the buffer is in its canonical
form. These are the model's choice and rest on no rule: that the reset is the event at the head of the
host's list and the later events stay (log entry 1), and that the responses already delivered stay on
record (log entry 2). Nothing is said of H, a, b, c, d, B's bytes and LEN, which R188 leaves unspecified
(free values in the model, log entry 5). Derived from 70_reset_and_hazards.md section 1 (R187, R188). -/
def Obligations.ResetClearsTheControlState : Prop :=
  ∀ (s : State) (rest : List HostEvent), s.host = .reset :: rest → ∃ t, step s = .next t ∧
    t.ph = .idle ∧ t.rc = 0#7 ∧ t.err = false ∧ t.ecode = 0#3 ∧ t.statusByte = 0x00#8 ∧
    t.busy = false ∧ t.ready = true ∧ t.dv = false ∧ t.B.wf ∧ t.host = rest ∧ t.rsp = s.rsp

/-- A ready core to which nothing is presented keeps all its state. In IDLE, ABSORB or DONE with RC = 0:
with no event left the step changes nothing; with waiting as the host's next event it changes nothing
but taking that event. So all state survives any length of waiting. How waiting is held is the model's
choice, log entry 1. Derived from 60_exceptions.md section 4 (R184). -/
def Obligations.IdleCoreKeepsItsState : Prop :=
  ∀ s : State, s.busy = false → s.rc = 0#7 →
    (s.host = [] → step s = .next s) ∧
    (∀ rest, s.host = .wait :: rest → step s = .next { s with host := rest })

/-- A step in an unreachable sequencer state is refused by name, and in this model only there (log entries
7, 8, 10). With no reset requested next, the step is refused, under the name unreachableState, exactly
when RC is 65 to 127 or RC is non-zero while the phase is no compression phase; no step is refused under
any other name or faults; and no state that meets the invariant of the reachable states is one of these.
R65 says only that such a state is refused. That no other state is, so that the other states of U5 are
run by the rules (log entry 7), that step never asks for a micro-step that is not selected (log entry
8), and that no step ends in a fault (log entry 10), is the model's reading. Derived from 30_encoding.md
section 3 (R65); 10_state.md section 6 (R34, which the spec marks as derived);
93_implementation_defined.md part 1 (U5). -/
def Obligations.UnreachableStatesAreRefused : Prop :=
  ∀ s : State,
    (s.noReset = true → (step s = .refused .unreachableState ↔
      (65 ≤ s.rc.toNat ∨ (s.rc.toNat ≠ 0 ∧ ¬ (s.ph = .compD ∨ s.ph = .compP1 ∨ s.ph = .compP2))))) ∧
    (∀ r, step s = .refused r → r = .unreachableState) ∧ (∀ r, step s ≠ .fault r) ∧
    (s.Inv → ¬ (65 ≤ s.rc.toNat ∨
      (s.rc.toNat ≠ 0 ∧ ¬ (s.ph = .compD ∨ s.ph = .compP1 ∨ s.ph = .compP2))))

/-- In every state of the invariant either the core takes a micro-step or the host may issue a command. In
every state that meets the invariant, BUSY and READY are complements, DV is PH = DONE, and: if BUSY = 1
the sequencer's decode is a micro-step, no host command; if READY = 1 it is waiting for a command.
Derived from 43_driver_commands.md section 3 (R163); 10_state.md section 3 (R29). -/
def Obligations.ExactlyOneAgentIsEnabled : Prop :=
  ∀ s : State, s.Inv →
    s.ready = !s.busy ∧ (s.dv = true ↔ s.ph = .done) ∧
    (s.busy = true ↔ s.ph = .pad1 ∨ s.ph = .pad2 ∨ s.ph = .compD ∨ s.ph = .compP1 ∨ s.ph = .compP2) ∧
    (s.busy = true → ∃ i, ¬ HostCommand i ∧ decodeSequencer (phaseCode s.ph) s.rc = .instr i) ∧
    (s.ready = true → decodeSequencer (phaseCode s.ph) s.rc = .waits)

/-- The state right after reset is as the spec gives it and meets the invariant. State.reset meets the
invariant of the reachable states; PH is IDLE, RC, ERR and ECODE are 0, STATUS reads 0x00, the core is
ready. Nothing is said of the registers whose reset value the model chose (log entries 3 and 4). Derived
from 70_reset_and_hazards.md section 1 (R188); 10_state.md section 6 (R34). -/
def Obligations.ResetStateMeetsTheInvariant : Prop :=
  State.reset.Inv ∧ State.reset.ph = .idle ∧ State.reset.rc = 0#7 ∧ State.reset.err = false ∧
    State.reset.ecode = 0#3 ∧ State.reset.statusByte = 0x00#8 ∧ State.reset.ready = true

/-- Every step keeps the invariant of the reachable states. For every state that meets the invariant,
whatever the host does next (a command of any word, waiting, a reset): if the step answers a next state,
that state meets it. The invariant: RC <= 64; RC = 0 outside a compression phase; ECODE = 0 exactly when
ERR = 0, and ECODE <= 3; with ERR = 1 the core is not busy; FILL = 0 in COMP_D; FILL >= 56 in PAD2 and
COMP_P2; the block buffer is in its canonical form with addresses below 64. Derived from 10_state.md
section 6 (the spec marks R34 as derived); 43_driver_commands.md section 3; 42_compressor.md section 1. -/
def Obligations.StepKeepsTheInvariant : Prop :=
  ∀ s t : State, s.Inv → step s = .next t → t.Inv

/-- A state of the invariant always has a next state. In every state that meets the invariant, whatever the
host does next, the step answers a next state: no busy state lacks a micro-step, no command of any of
the 1024 words stops the machine, and a reset never does. It is stated for one step; with
StepKeepsTheInvariant it holds of every run. Derived from 70_reset_and_hazards.md section 4 (R197, its
last sentences); 00_scope.md section 6 (R19). -/
def Obligations.ReachableStatesAlwaysStep : Prop :=
  ∀ s : State, s.Inv → ∃ t, step s = .next t

/-- A step changes the phase only as the transition table says. With no reset requested, from a state that
meets the invariant, the phase after a step is one of: IDLE to IDLE or, by INIT, ABSORB; ABSORB to
COMP_D, by DATA with FILL = 63 before, to PAD1, by FINAL, or to ABSORB, which a DATA that is accepted
(LEN goes up by 1) does only with FILL below 63; PAD1 to COMP_P1; PAD2 to COMP_P2; a compression phase
to itself with RC + 1 while RC < 64; at RC = 64 COMP_D to ABSORB, COMP_P1 to DONE with FILL <= 55 and to
PAD2 with FILL >= 56, COMP_P2 to DONE; DONE to DONE or, by INIT, ABSORB. Derived from
43_driver_commands.md section 3 (R159). -/
def Obligations.PhasesFollowTheTransitionTable : Prop :=
  ∀ s t : State, s.Inv → s.noReset = true → step s = .next t →
    match s.ph with
    | .idle => t.ph = .idle ∨ t.ph = .absorb ∧ ∃ rest, s.host = .command 0x001#10 :: rest
    | .absorb =>
        (t.ph = .absorb ∧ (t.len.toNat = s.len.toNat + 1 → s.fill.toNat < 63)) ∨
        (t.ph = .compD ∧ s.fill.toNat = 63 ∧
          ∃ (byte : Byte) (rest : List HostEvent), s.host = .command (0b01#2 ++ byte) :: rest) ∨
        (t.ph = .pad1 ∧ ∃ rest, s.host = .command 0x002#10 :: rest)
    | .pad1 => t.ph = .compP1
    | .pad2 => t.ph = .compP2
    | .compD => if s.rc.toNat < 64 then t.ph = .compD ∧ t.rc.toNat = s.rc.toNat + 1
        else t.ph = .absorb ∧ t.rc = 0#7
    | .compP1 => if s.rc.toNat < 64 then t.ph = .compP1 ∧ t.rc.toNat = s.rc.toNat + 1
        else t.ph = (if s.fill.toNat ≤ 55 then Phase.done else Phase.pad2) ∧ t.rc = 0#7
    | .compP2 => if s.rc.toNat < 64 then t.ph = .compP2 ∧ t.rc.toNat = s.rc.toNat + 1
        else t.ph = .done ∧ t.rc = 0#7
    | .done => t.ph = .done ∨ t.ph = .absorb ∧ ∃ rest, s.host = .command 0x001#10 :: rest

/-- LEN changes only by INIT and by an accepted DATA. Whatever a step without a reset does: LEN stays, or
becomes 0 by INIT with ERR = 0, or goes up by 1 in ABSORB by DATA with ERR = 0, the word 01 and the byte
being what the host presented; so in PAD1, PAD2 and every compression phase it stays, and in DONE it
stays unless INIT is taken. It never wraps. Derived from 10_state.md section 6 (R34(f), which the spec
marks as derived); 10_state.md section 2 (R24). -/
def Obligations.LengthStaysThroughPadding : Prop :=
  ∀ s t : State, s.noReset = true → step s = .next t →
    (t.len = s.len ∨
      (t.len = 0#61 ∧ t.ph = .absorb ∧ s.err = false ∧ ∃ rest, s.host = .command 0x001#10 :: rest) ∨
      (t.len.toNat = s.len.toNat + 1 ∧ s.ph = .absorb ∧ s.err = false ∧
        ∃ (byte : Byte) (rest : List HostEvent), s.host = .command (0b01#2 ++ byte) :: rest)) ∧
    (s.busy = true → t.len = s.len) ∧
    (s.ph = .done → t.ph = .done → t.len = s.len)

/-- In DONE the digest changes only by INIT or reset. In DONE, a step without a reset either takes INIT with
ERR = 0, or leaves H, every digest byte, a, b, c, d, every byte of B, LEN, PH and RC as they are, so
that only the fault record and the responses can have changed; no micro-step is selected in DONE.
Formalises R169. -/
def Obligations.DigestIsStableInDone : Prop :=
  ∀ s t : State, s.ph = .done →
    (∀ i, decodeSequencer (phaseCode s.ph) s.rc ≠ .instr i) ∧
    (s.noReset = true → step s = .next t →
      (s.err = false ∧ t.ph = .absorb ∧ ∃ rest, s.host = .command 0x001#10 :: rest) ∨
      (t.H = s.H ∧ (∀ idx, digestByte t.H idx = digestByte s.H idx) ∧ t.w = s.w ∧ SameBytes s t ∧
        t.len = s.len ∧ t.ph = .done ∧ t.rc = s.rc))

/-- Only reset clears the fault record, and the first cause is kept. From a state that meets the invariant
with ERR = 1, every step without a reset leaves ERR = 1, ECODE the code of the first fault, and H, a, b,
c, d, every byte of B, LEN, PH and RC as they are. Derived from 60_exceptions.md section 2 (R177, R179);
10_state.md section 3 (R26). -/
def Obligations.FaultRecordIsSticky : Prop :=
  ∀ s t : State, s.Inv → s.err = true → s.noReset = true → step s = .next t → SameRegisters s t

/-- H is written by INIT, by ACC and by reset, and by nothing else; B by DATA and the formatters. For every
instruction that answers a next state: H is as before unless the instruction is INIT or ACC; a, b, c, d
unless it is DATA, FMT1, FMT2 or a round; every byte of B unless it is DATA, FMT1 or FMT2; LEN unless it
is INIT or DATA; ERR and ECODE unless it is DATA, FINAL or READ; the responses unless it is READ or
STATUS; the host's events always. This is the table of R37, write column by write column (RC: unless
INIT, DATA, FMT1, FMT2, a round, ACC; PH: unless INIT, DATA, FINAL, FMT1, FMT2, ACC). Derived from
10_state.md section 2 (R20); 10_state.md section 6 (R37). -/
def Obligations.DigestStateIsWrittenOnlyByInitAndAcc : Prop :=
  ∀ (i : Instr) (s t : State), exec i s = .next t →
    (i ≠ .init → i ≠ .acc → t.H = s.H) ∧
    ((HostCommand i ∧ (∀ byte, i ≠ .data byte)) ∨ i = .acc → t.w = s.w) ∧
    ((∀ byte, i ≠ .data byte) → i ≠ .fmt1 → i ≠ .fmt2 → SameBytes s t) ∧
    (i ≠ .init → (∀ byte, i ≠ .data byte) → t.len = s.len) ∧
    (i = .final ∨ i = .status ∨ (∃ idx, i = .read idx) → t.rc = s.rc) ∧
    (i = .status ∨ (∃ idx, i = .read idx) ∨ (¬ HostCommand i ∧ i ≠ .fmt1 ∧ i ≠ .fmt2 ∧ i ≠ .acc) →
      t.ph = s.ph) ∧
    ((∀ byte, i ≠ .data byte) → i ≠ .final → (∀ idx, i ≠ .read idx) → SameRecord s t) ∧
    ((∀ idx, i ≠ .read idx) → t.draws = s.draws ∧ (i ≠ .status → t.rsp = s.rsp)) ∧
    t.host = s.host

/-- 65 micro-steps compute Compress of the digest state and the block. From every state with a compression
phase, RC = 0 and (a, b, c, d) = H, with no reset among the host's events, 65 steps (64 rounds, then
ACC) reach a state with H = Compress(H, B), B as before, RC = 0, the phase that ACC branches to, LEN and
the fault record as before, and no response delivered. Derived from 42_compressor.md section 2 (R147,
whose 65 micro-steps the spec marks as derived). -/
def Obligations.CompressionComputesCompress : Prop :=
  ∀ s : State, compressing s.ph = true → s.rc = 0#7 → s.w = ⟨s.H.h0, s.H.h1, s.H.h2, s.H.h3⟩ →
    HostEvent.reset ∉ s.host → ∃ t, steps 65 s = .next t ∧
      t.H = compress s.H s.B.bytes ∧ t.B = s.B ∧ t.rc = 0#7 ∧ t.ph = nextPhase s.ph s.fill ∧
      t.len = s.len ∧ SameRecord s t ∧ t.rsp = s.rsp

/-- Every busy stretch ends within 132 micro-steps. From every busy state that meets the invariant, with no
reset among the host's events, at most 132 steps lead to a state that is not busy, with the fault record
and LEN unchanged; which command is waiting does not matter. (That a step of a busy core is a micro-step
is the model's form of the progress assumption, log entry 12.) Derived from 43_driver_commands.md
section 3 (R163, a sentence the spec marks as derived); 70_reset_and_hazards.md section 4 (R197). -/
def Obligations.BusyStretchesEnd : Prop :=
  ∀ s : State, s.Inv → s.busy = true → HostEvent.reset ∉ s.host →
    ∃ n t, n ≤ 132 ∧ steps n s = .next t ∧ t.busy = false ∧ t.Inv ∧ SameRecord s t ∧ t.len = s.len

/-- A well-formed message script ends in DONE with H = MD5state(msg), from any ready state. For every
message of at most 2^61 - 1 bytes and every state that is not busy, with RC = 0, ERR = 0 and the buffer
in canonical form, whatever H, a, b, c, d, B and LEN hold: when the host presents INIT, the bytes as
DATA, FINAL, and then any further commands, the machine is after 2 + L commands and 65 (L div 64) + 66
or 132 micro-steps in DONE with ERR = 0, H = MD5state(msg), the 16 digest bytes MD5(msg), LEN = L, the
further commands not yet taken and no response delivered. R162 (the count), R140 and R166 are sentences
the spec marks as derived. Derived from 43_driver_commands.md section 4 (R164, R165, R166);
43_driver_commands.md section 3 (R162); 41_padder.md section 3 (R140). -/
def Obligations.MessageScriptComputesTheDigest : Prop :=
  ∀ (msg : List Byte) (more : List CommandWord) (s : State), msg.length ≤ 2 ^ 61 - 1 →
    s.busy = false → s.rc = 0#7 → s.err = false → s.B.wf →
    s.host = present (script msg ++ more) →
    ∃ t, steps (2 + msg.length + microStepCount msg.length) s = .next t ∧
      t.runComplete = true ∧ md5State msg = some t.H ∧
      (∃ digest, md5 msg = some digest ∧ digest.length = 16 ∧
        ∀ idx : BitVec 4, digest[idx.toNat]? = some (digestByte t.H idx)) ∧
      t.len.toNat = msg.length ∧ t.host = present more ∧ t.rsp = s.rsp

/-- Pad(msg) byte by byte, its length and its number of blocks. For every message of L <= 2^61 - 1 bytes:
Pad(msg) is defined, and is the message, then 0x80, then Z zero bytes, then the 8 bytes of 8L, least
significant first, and nothing else; Z is (55 - L) mod 64, below 64, the least number for which L + 1 +
Z is 56 modulo 64 (R134); and the length is 64 N with N = (L + 8) div 64 + 1, which is L div 64 + 1 when
L mod 64 <= 55 and L div 64 + 2 when it is 56 or more (R135, whose last clause is a sentence the spec
marks as derived). Derived from 41_padder.md section 1 (R134, R135, whose split at 55 and 56 the spec
marks as derived). -/
def Obligations.PaddingFillsWholeBlocks : Prop :=
  ∀ msg : List Byte, msg.length ≤ 2 ^ 61 - 1 → ∃ padded, pad msg = some padded ∧
    padZeros msg.length < 64 ∧ (msg.length + 1 + padZeros msg.length) % 64 = 56 ∧
    (∀ z, (msg.length + 1 + z) % 64 = 56 → padZeros msg.length ≤ z) ∧
    padded.take msg.length = msg ∧
    padded[msg.length]? = some 0x80#8 ∧
    (∀ j, j < padZeros msg.length → padded[msg.length + 1 + j]? = some 0x00#8) ∧
    (∀ n, n < 8 → (padded.getD (msg.length + 1 + padZeros msg.length + n) 0).toNat =
      8 * msg.length / 2 ^ (8 * n) % 256) ∧
    padded.length = msg.length + 1 + padZeros msg.length + 8 ∧
    padded.length = 64 * numBlocks msg.length ∧ numBlocks msg.length = (msg.length + 8) / 64 + 1 ∧
    numBlocks msg.length = msg.length / 64 + (if msg.length % 64 ≤ 55 then 1 else 2)

/-- Ser is a bijection onto 16-byte strings, and DIGEST is Ser(H). For every 4-word state Ser gives 16
bytes, byte 4q + n being bits 8n + 7 to 8n of word q, which is also what the view DIGEST shows at that
index; two states with the same bytes are the same; and every 16 bytes are the serialization of some
state. Formalises R167. -/
def Obligations.SerializerIsABijection : Prop :=
  (∀ h : DigestState, (ser h).length = 16 ∧
    (∀ q n : Nat, q < 4 → n < 4 → ((ser h).getD (4 * q + n) 0).toNat =
      ([h.h0, h.h1, h.h2, h.h3].getD q 0).toNat / 2 ^ (8 * n) % 256) ∧
    (∀ idx : BitVec 4, digestByte h idx = (ser h).getD idx.toNat 0)) ∧
  (∀ g h : DigestState, ser g = ser h → g = h) ∧
  (∀ bs : List Byte, bs.length = 16 → ∃ h, ser h = bs)

/-- What the data registers hold in IDLE never shows at the port (bytes of faulting READs: log entry 6).
Take two states in IDLE that agree on the sequencer, the fault record, the host's events, the past
responses and the count of draws, and differ at will in H, a, b, c, d, B and LEN (buffers in canonical
form). After any number of steps, whatever the host does (any words, faults, resets): if one run goes on
so does the other, and the two still agree on all of that; and outside IDLE, from INIT on and so also at
the end of a run, on H and LEN too. That the two agree also on the bytes of faulting and frozen READs,
which R168 and U3 leave any value, is the model's choice and no claim about the hardware: its free
response is a function of the count of draws alone (log entry 6). The host's events and the record of
responses are the model's own fields (log entries 1 and 2). It starts in IDLE;
DigestForgetsWhatCameBeforeInit starts at an INIT in any ready phase and rests on no such byte. Derived
from 10_state.md section 6 (R38, which the spec marks as derived); 00_scope.md section 6 (R18). -/
def Obligations.LeftoversNeverReachThePort : Prop :=
  ∀ (n : Nat) (s t u : State), s.ph = .idle → s.B.wf → t.B.wf → SamePort s t → steps n s = .next u →
    ∃ v, steps n t = .next v ∧ SamePort u v ∧ (u.ph ≠ .idle → v.H = u.H ∧ v.len = u.len)

/-- The lines of the assembler and their words. INIT, FINAL, STATUS assemble to words that decode to them;
DATA n with n <= 255 and READ i with i <= 15 to the words 0x100 + n and 0x200 + i, which decode to them
with that operand; .word w with w <= 0x3FF to w; and a DATA, READ or .word line with an operand out of
range, alone or among other lines, assembles to nothing. Derived from 30_encoding.md section 4 (R66, its
table and its sentence on ranges). -/
def Obligations.AssembledLinesDecodeToTheirCommands : Prop :=
  (∃ w, assemble [.init] = some [w] ∧ w.toNat = 0x001 ∧ decodeCommand w = .instr .init) ∧
  (∃ w, assemble [.final] = some [w] ∧ w.toNat = 0x002 ∧ decodeCommand w = .instr .final) ∧
  (∃ w, assemble [.status] = some [w] ∧ w.toNat = 0x003 ∧ decodeCommand w = .instr .status) ∧
  (∀ n, n ≤ 255 → ∃ w, assemble [.data n] = some [w] ∧ w.toNat = 0x100 + n ∧
    decodeCommand w = .instr (.data (BitVec.ofNat 8 n))) ∧
  (∀ i, i ≤ 15 → ∃ w, assemble [.read i] = some [w] ∧ w.toNat = 0x200 + i ∧
    decodeCommand w = .instr (.read (BitVec.ofNat 4 i))) ∧
  (∀ w, w ≤ 0x3FF → ∃ v, assemble [.word w] = some [v] ∧ v.toNat = w) ∧
  (∀ (n : Nat) (before after : List AsmLine),
    (255 < n → assemble (before ++ .data n :: after) = none) ∧
    (15 < n → assemble (before ++ .read n :: after) = none) ∧
    (0x3FF < n → assemble (before ++ .word n :: after) = none))

/-- A message of 2^61 bytes or more has no padding and no digest, and LEN never gets there. For a message of
2^61 bytes or more Pad(msg), MD5state(msg) and MD5(msg) are not defined; for a shorter one each is. The
bit length BITLEN is 8 LEN and fits 64 bits in every state, and with ERR = 0 in ABSORB the DATA that
would make the message longer than 2^61 - 1 bytes records LengthOverflow (code 3) and writes nothing
else. Formalises R141. -/
def Obligations.NoDigestBeyondTheLimit : Prop :=
  (∀ msg : List Byte, 2 ^ 61 ≤ msg.length → pad msg = none ∧ md5State msg = none ∧ md5 msg = none) ∧
  (∀ msg : List Byte, msg.length < 2 ^ 61 →
    (∃ padded, pad msg = some padded) ∧ (∃ d, md5State msg = some d) ∧ ∃ digest, md5 msg = some digest) ∧
  (∀ s : State, s.bitlen.toNat = 8 * s.len.toNat ∧ 8 * s.len.toNat < 2 ^ 64) ∧
  (∀ (s : State) (byte : Byte), s.err = false → s.ph = .absorb → 2 ^ 61 - 1 < s.len.toNat + 1 →
    exec (.data byte) s = .next { s with err := true, ecode := 3#3 })

/-- Nothing from before an INIT reaches the digest or a response, from any phase in which INIT is accepted.
Take two states in IDLE, ABSORB or DONE with RC = 0 and ERR = 0 that agree on the sequencer, the fault
record, the host's events, the past responses and the count of draws, and differ at will in H, a, b, c,
d, B and LEN (buffers in canonical form), with INIT the next word of the host. After any number of steps
from the INIT on, whatever the host does: if one run goes on so does the other; they agree on PH, RC,
the fault record, the events left, and how many responses were delivered; outside IDLE, so also at the
end of a run, on H and LEN; and on every response as long as no free value was drawn, that is without a
reset event and without a READ that faults or is frozen. Nothing is said of the bytes of such READs
(U3). The events, the record of responses and the count of draws are the model's own fields (log entries
1, 2 and 6). Derived from 00_scope.md section 6 (R18); 10_state.md section 6 (R38, which the spec marks
as derived); 43_driver_commands.md section 2 (R155). -/
def Obligations.DigestForgetsWhatCameBeforeInit : Prop :=
  ∀ (n : Nat) (s t u : State) (rest : List HostEvent), s.busy = false → s.rc = 0#7 → s.err = false →
    s.host = .command 0x001#10 :: rest → s.B.wf → t.B.wf → SamePort s t → steps (n + 1) s = .next u →
    ∃ v, steps (n + 1) t = .next v ∧
      v.ph = u.ph ∧ v.rc = u.rc ∧ v.err = u.err ∧ v.ecode = u.ecode ∧ v.host = u.host ∧
      v.draws = u.draws ∧ v.rsp.length = u.rsp.length ∧
      (u.ph ≠ .idle → v.H = u.H ∧ v.len = u.len) ∧ (u.draws = s.draws → v.rsp = u.rsp)
end

