-- ==== Sys2Proof/Laws/State.lean ====
section
/-! SUPPORT. The small lemmas of the state: what each named update leaves in each field, so that no proof
unfolds a record update. -/

namespace Sys2Proof.Machine

/-! ### `State.respond` -/

@[simp] theorem respond_H (s : State) (b : Byte) :
    (s.respond b).H = s.H := rfl
@[simp] theorem respond_w (s : State) (b : Byte) :
    (s.respond b).w = s.w := rfl
@[simp] theorem respond_B (s : State) (b : Byte) :
    (s.respond b).B = s.B := rfl
@[simp] theorem respond_len (s : State) (b : Byte) :
    (s.respond b).len = s.len := rfl
@[simp] theorem respond_ph (s : State) (b : Byte) :
    (s.respond b).ph = s.ph := rfl
@[simp] theorem respond_rc (s : State) (b : Byte) :
    (s.respond b).rc = s.rc := rfl
@[simp] theorem respond_err (s : State) (b : Byte) :
    (s.respond b).err = s.err := rfl
@[simp] theorem respond_ecode (s : State) (b : Byte) :
    (s.respond b).ecode = s.ecode := rfl
@[simp] theorem respond_host (s : State) (b : Byte) :
    (s.respond b).host = s.host := rfl
@[simp] theorem respond_rsp (s : State) (b : Byte) :
    (s.respond b).rsp = s.rsp ++ [b] := rfl
@[simp] theorem respond_draws (s : State) (b : Byte) :
    (s.respond b).draws = s.draws := rfl
@[simp] theorem respond_busy (s : State) (b : Byte) :
    (s.respond b).busy = s.busy := rfl
@[simp] theorem respond_dv (s : State) (b : Byte) :
    (s.respond b).dv = s.dv := rfl
@[simp] theorem respond_fill (s : State) (b : Byte) :
    (s.respond b).fill = s.fill := rfl
@[simp] theorem respond_bitlen (s : State) (b : Byte) :
    (s.respond b).bitlen = s.bitlen := rfl

/-! ### `State.respondFree` -/

@[simp] theorem respondFree_H (s : State) :
    s.respondFree.H = s.H := rfl
@[simp] theorem respondFree_w (s : State) :
    s.respondFree.w = s.w := rfl
@[simp] theorem respondFree_B (s : State) :
    s.respondFree.B = s.B := rfl
@[simp] theorem respondFree_len (s : State) :
    s.respondFree.len = s.len := rfl
@[simp] theorem respondFree_ph (s : State) :
    s.respondFree.ph = s.ph := rfl
@[simp] theorem respondFree_rc (s : State) :
    s.respondFree.rc = s.rc := rfl
@[simp] theorem respondFree_err (s : State) :
    s.respondFree.err = s.err := rfl
@[simp] theorem respondFree_ecode (s : State) :
    s.respondFree.ecode = s.ecode := rfl
@[simp] theorem respondFree_host (s : State) :
    s.respondFree.host = s.host := rfl
@[simp] theorem respondFree_rsp (s : State) :
    s.respondFree.rsp = s.rsp ++ [Config.freeResponse s.draws] := rfl
@[simp] theorem respondFree_draws (s : State) :
    s.respondFree.draws = s.draws + 1 := rfl
@[simp] theorem respondFree_busy (s : State) :
    s.respondFree.busy = s.busy := rfl
@[simp] theorem respondFree_dv (s : State) :
    s.respondFree.dv = s.dv := rfl
@[simp] theorem respondFree_fill (s : State) :
    s.respondFree.fill = s.fill := rfl
@[simp] theorem respondFree_bitlen (s : State) :
    s.respondFree.bitlen = s.bitlen := rfl

/-! ### `State.raise` -/

@[simp] theorem raise_H (s : State) (c : Cause) :
    (s.raise c).H = s.H := rfl
@[simp] theorem raise_w (s : State) (c : Cause) :
    (s.raise c).w = s.w := rfl
@[simp] theorem raise_B (s : State) (c : Cause) :
    (s.raise c).B = s.B := rfl
@[simp] theorem raise_len (s : State) (c : Cause) :
    (s.raise c).len = s.len := rfl
@[simp] theorem raise_ph (s : State) (c : Cause) :
    (s.raise c).ph = s.ph := rfl
@[simp] theorem raise_rc (s : State) (c : Cause) :
    (s.raise c).rc = s.rc := rfl
@[simp] theorem raise_err (s : State) (c : Cause) :
    (s.raise c).err = true := rfl
@[simp] theorem raise_ecode (s : State) (c : Cause) :
    (s.raise c).ecode = causeCode c := rfl
@[simp] theorem raise_host (s : State) (c : Cause) :
    (s.raise c).host = s.host := rfl
@[simp] theorem raise_rsp (s : State) (c : Cause) :
    (s.raise c).rsp = s.rsp := rfl
@[simp] theorem raise_draws (s : State) (c : Cause) :
    (s.raise c).draws = s.draws := rfl
@[simp] theorem raise_busy (s : State) (c : Cause) :
    (s.raise c).busy = s.busy := rfl
@[simp] theorem raise_dv (s : State) (c : Cause) :
    (s.raise c).dv = s.dv := rfl
@[simp] theorem raise_fill (s : State) (c : Cause) :
    (s.raise c).fill = s.fill := rfl
@[simp] theorem raise_bitlen (s : State) (c : Cause) :
    (s.raise c).bitlen = s.bitlen := rfl

/-! ### `State.load` -/

@[simp] theorem load_H (s : State) :
    s.load.H = s.H := rfl
@[simp] theorem load_w (s : State) :
    s.load.w = ⟨s.H.h0, s.H.h1, s.H.h2, s.H.h3⟩ := rfl
@[simp] theorem load_B (s : State) :
    s.load.B = s.B := rfl
@[simp] theorem load_len (s : State) :
    s.load.len = s.len := rfl
@[simp] theorem load_ph (s : State) :
    s.load.ph = s.ph := rfl
@[simp] theorem load_rc (s : State) :
    s.load.rc = 0 := rfl
@[simp] theorem load_err (s : State) :
    s.load.err = s.err := rfl
@[simp] theorem load_ecode (s : State) :
    s.load.ecode = s.ecode := rfl
@[simp] theorem load_host (s : State) :
    s.load.host = s.host := rfl
@[simp] theorem load_rsp (s : State) :
    s.load.rsp = s.rsp := rfl
@[simp] theorem load_draws (s : State) :
    s.load.draws = s.draws := rfl
@[simp] theorem load_busy (s : State) :
    s.load.busy = s.busy := rfl
@[simp] theorem load_dv (s : State) :
    s.load.dv = s.dv := rfl
@[simp] theorem load_fill (s : State) :
    s.load.fill = s.fill := rfl
@[simp] theorem load_bitlen (s : State) :
    s.load.bitlen = s.bitlen := rfl

/-! ### `State.resetEvent` -/

@[simp] theorem resetEvent_H (s : State) :
    s.resetEvent.H = ⟨Config.freeWord s.draws 0, Config.freeWord s.draws 1, Config.freeWord s.draws 2,
      Config.freeWord s.draws 3⟩ := rfl
@[simp] theorem resetEvent_w (s : State) :
    s.resetEvent.w = ⟨Config.freeWord s.draws 4, Config.freeWord s.draws 5, Config.freeWord s.draws 6,
      Config.freeWord s.draws 7⟩ := rfl
@[simp] theorem resetEvent_B (s : State) :
    s.resetEvent.B = Memory.ofFn (Config.freeByte s.draws) := rfl
@[simp] theorem resetEvent_len (s : State) :
    s.resetEvent.len = Config.freeLen s.draws := rfl
@[simp] theorem resetEvent_ph (s : State) :
    s.resetEvent.ph = .idle := rfl
@[simp] theorem resetEvent_rc (s : State) :
    s.resetEvent.rc = 0 := rfl
@[simp] theorem resetEvent_err (s : State) :
    s.resetEvent.err = false := rfl
@[simp] theorem resetEvent_ecode (s : State) :
    s.resetEvent.ecode = 0 := rfl
@[simp] theorem resetEvent_host (s : State) :
    s.resetEvent.host = s.host := rfl
@[simp] theorem resetEvent_rsp (s : State) :
    s.resetEvent.rsp = s.rsp := rfl
@[simp] theorem resetEvent_draws (s : State) :
    s.resetEvent.draws = s.draws + 1 := rfl

/-! ### `State.hostWaits`: only the host's events can change -/

@[simp] theorem hostWaits_H (s : State) : s.hostWaits.H = s.H := by
  unfold State.hostWaits; split <;> rfl

@[simp] theorem hostWaits_w (s : State) : s.hostWaits.w = s.w := by
  unfold State.hostWaits; split <;> rfl

@[simp] theorem hostWaits_B (s : State) : s.hostWaits.B = s.B := by
  unfold State.hostWaits; split <;> rfl

@[simp] theorem hostWaits_len (s : State) : s.hostWaits.len = s.len := by
  unfold State.hostWaits; split <;> rfl

@[simp] theorem hostWaits_ph (s : State) : s.hostWaits.ph = s.ph := by
  unfold State.hostWaits; split <;> rfl

@[simp] theorem hostWaits_rc (s : State) : s.hostWaits.rc = s.rc := by
  unfold State.hostWaits; split <;> rfl

@[simp] theorem hostWaits_err (s : State) : s.hostWaits.err = s.err := by
  unfold State.hostWaits; split <;> rfl

@[simp] theorem hostWaits_ecode (s : State) : s.hostWaits.ecode = s.ecode := by
  unfold State.hostWaits; split <;> rfl

@[simp] theorem hostWaits_rsp (s : State) : s.hostWaits.rsp = s.rsp := by
  unfold State.hostWaits; split <;> rfl

@[simp] theorem hostWaits_draws (s : State) : s.hostWaits.draws = s.draws := by
  unfold State.hostWaits; split <;> rfl

theorem hostWaits_host (s : State) :
    s.hostWaits.host = s.host ∨ s.host = .wait :: s.hostWaits.host := by
  unfold State.hostWaits
  split
  · exact .inr ‹_›
  · exact .inl rfl

/-! ### `State.illegalCommand`: only the fault record can change -/

@[simp] theorem illegalCommand_H (s : State) : s.illegalCommand.H = s.H := by
  unfold State.illegalCommand; split <;> rfl

@[simp] theorem illegalCommand_w (s : State) : s.illegalCommand.w = s.w := by
  unfold State.illegalCommand; split <;> rfl

@[simp] theorem illegalCommand_B (s : State) : s.illegalCommand.B = s.B := by
  unfold State.illegalCommand; split <;> rfl

@[simp] theorem illegalCommand_len (s : State) : s.illegalCommand.len = s.len := by
  unfold State.illegalCommand; split <;> rfl

@[simp] theorem illegalCommand_ph (s : State) : s.illegalCommand.ph = s.ph := by
  unfold State.illegalCommand; split <;> rfl

@[simp] theorem illegalCommand_rc (s : State) : s.illegalCommand.rc = s.rc := by
  unfold State.illegalCommand; split <;> rfl

@[simp] theorem illegalCommand_host (s : State) : s.illegalCommand.host = s.host := by
  unfold State.illegalCommand; split <;> rfl

@[simp] theorem illegalCommand_rsp (s : State) : s.illegalCommand.rsp = s.rsp := by
  unfold State.illegalCommand; split <;> rfl

@[simp] theorem illegalCommand_draws (s : State) : s.illegalCommand.draws = s.draws := by
  unfold State.illegalCommand; split <;> rfl

theorem illegalCommand_of_err {s : State} (h : s.err = true) : s.illegalCommand = s := by
  simp [State.illegalCommand, h]

theorem illegalCommand_of_not_err {s : State} (h : s.err = false) :
    s.illegalCommand = s.raise .illegalCommand := by
  simp [State.illegalCommand, h]

/-! ### `State.acceptByte` -/

@[simp] theorem acceptByte_H (s : State) (byte : Byte) :
    (s.acceptByte byte).H = s.H := by
  unfold State.acceptByte; dsimp only; split <;> rfl

@[simp] theorem acceptByte_B (s : State) (byte : Byte) :
    (s.acceptByte byte).B = s.B.write s.fill.toNat byte := by
  unfold State.acceptByte; dsimp only; split <;> rfl

@[simp] theorem acceptByte_len (s : State) (byte : Byte) :
    (s.acceptByte byte).len = s.len + 1 := by
  unfold State.acceptByte; dsimp only; split <;> rfl

@[simp] theorem acceptByte_err (s : State) (byte : Byte) :
    (s.acceptByte byte).err = s.err := by
  unfold State.acceptByte; dsimp only; split <;> rfl

@[simp] theorem acceptByte_ecode (s : State) (byte : Byte) :
    (s.acceptByte byte).ecode = s.ecode := by
  unfold State.acceptByte; dsimp only; split <;> rfl

@[simp] theorem acceptByte_host (s : State) (byte : Byte) :
    (s.acceptByte byte).host = s.host := by
  unfold State.acceptByte; dsimp only; split <;> rfl

@[simp] theorem acceptByte_rsp (s : State) (byte : Byte) :
    (s.acceptByte byte).rsp = s.rsp := by
  unfold State.acceptByte; dsimp only; split <;> rfl

@[simp] theorem acceptByte_draws (s : State) (byte : Byte) :
    (s.acceptByte byte).draws = s.draws := by
  unfold State.acceptByte; dsimp only; split <;> rfl

theorem acceptByte_w (s : State) (byte : Byte) : (s.acceptByte byte).w =
    if s.fill = 63#6 then ⟨s.H.h0, s.H.h1, s.H.h2, s.H.h3⟩ else s.w := by
  unfold State.acceptByte; dsimp only; split <;> rfl

theorem acceptByte_rc (s : State) (byte : Byte) :
    (s.acceptByte byte).rc = if s.fill = 63#6 then 0 else s.rc := by
  unfold State.acceptByte; dsimp only; split <;> rfl

theorem acceptByte_ph (s : State) (byte : Byte) :
    (s.acceptByte byte).ph = if s.fill = 63#6 then .compD else s.ph := by
  unfold State.acceptByte; dsimp only; split <;> rfl

/-! ### Views -/

theorem ready_iff (s : State) : s.ready = true ↔ s.busy = false := by
  simp [State.ready]

/-- `FILL = LEN mod 64` (R25). -/
theorem fill_toNat (s : State) : s.fill.toNat = s.len.toNat % 64 := by
  simp [State.fill, BitVec.extractLsb'_toNat]

/-- `BITLEN = 8 * LEN`, with nothing lost (R25). -/
theorem bitlen_toNat (s : State) : s.bitlen.toNat = 8 * s.len.toNat := by
  refine (BitVec.toNat_append s.len 0#3).trans ?_
  simp [Nat.shiftLeft_eq, Nat.mul_comm]

@[simp] theorem phaseOfCode_phaseCode (p : Phase) : phaseOfCode (phaseCode p) = p := by
  cases p <;> rfl

theorem phaseCode_injective {p q : Phase} (h : phaseCode p = phaseCode q) : p = q := by
  rw [← phaseOfCode_phaseCode p, h, phaseOfCode_phaseCode]

/-- A compression phase is one of three. -/
theorem compressing_iff (p : Phase) :
    compressing p = true ↔ p = .compD ∨ p = .compP1 ∨ p = .compP2 := by
  cases p <;> simp [compressing]

theorem compressing_busy {p : Phase} (h : compressing p = true) : busyPhase p = true := by
  cases p <;> simp_all [compressing, busyPhase]

theorem not_busy_iff (p : Phase) :
    busyPhase p = false ↔ p = .idle ∨ p = .absorb ∨ p = .done := by
  cases p <;> simp [busyPhase]

end Sys2Proof.Machine
end

