-- ==== Sys2Proof/Laws/Decode.lean ====
section
/-! SUPPORT. What the decoders answer, by phase and by round. -/

namespace Sys2Proof.Machine

theorem decodeRoundCounter_lt {rc : BitVec 7} (h : rc.toNat < 64) :
    decodeRoundCounter rc = .instr (roundInstr rc.toNat) := by
  simp [decodeRoundCounter, h]

@[simp] theorem decodeRoundCounter_64 : decodeRoundCounter 64#7 = .instr .acc := rfl

theorem decodeRoundCounter_gt {rc : BitVec 7} (h : 64 < rc.toNat) :
    decodeRoundCounter rc = .unreachable := by
  have h1 : ¬ rc.toNat < 64 := by omega
  have h2 : rc ≠ 64#7 := fun e => by simp [e] at h
  simp [decodeRoundCounter, h1, h2]

theorem decodeSequencer_compressing {p : Phase} (h : compressing p = true) (rc : BitVec 7) :
    decodeSequencer (phaseCode p) rc = decodeRoundCounter rc := by
  cases p <;> simp_all [compressing, decodeSequencer, phaseCode]

theorem decodeSequencer_pad1 : decodeSequencer (phaseCode .pad1) 0#7 = .instr .fmt1 := rfl

theorem decodeSequencer_pad2 : decodeSequencer (phaseCode .pad2) 0#7 = .instr .fmt2 := rfl

theorem decodeSequencer_ready {p : Phase} (h : busyPhase p = false) :
    decodeSequencer (phaseCode p) 0#7 = .waits := by
  cases p <;> simp_all [busyPhase, decodeSequencer, phaseCode]

theorem decodeSequencer_unreachable {p : Phase} (h : compressing p = false) {rc : BitVec 7}
    (hrc : rc ≠ 0#7) : decodeSequencer (phaseCode p) rc = .unreachable := by
  cases p <;> simp_all [compressing, decodeSequencer, phaseCode]

/-- The sequencer never decodes a host command, nor a reserved word. -/
theorem decodeSequencer_cases (p : Phase) (rc : BitVec 7) :
    (busyPhase p = false ∧ rc = 0#7 ∧ decodeSequencer (phaseCode p) rc = .waits) ∨
    (p = .pad1 ∧ rc = 0#7 ∧ decodeSequencer (phaseCode p) rc = .instr .fmt1) ∨
    (p = .pad2 ∧ rc = 0#7 ∧ decodeSequencer (phaseCode p) rc = .instr .fmt2) ∨
    (compressing p = true ∧ rc.toNat < 64 ∧
      decodeSequencer (phaseCode p) rc = .instr (roundInstr rc.toNat)) ∨
    (compressing p = true ∧ rc = 64#7 ∧ decodeSequencer (phaseCode p) rc = .instr .acc) ∨
    decodeSequencer (phaseCode p) rc = .unreachable := by
  by_cases hc : compressing p = true
  · rw [decodeSequencer_compressing hc]
    rcases Nat.lt_trichotomy rc.toNat 64 with h | h | h
    · exact .inr (.inr (.inr (.inl ⟨hc, h, decodeRoundCounter_lt h⟩)))
    · have h64 : rc = 64#7 := BitVec.eq_of_toNat_eq h
      exact .inr (.inr (.inr (.inr (.inl ⟨hc, h64, h64 ▸ decodeRoundCounter_64⟩))))
    · exact .inr (.inr (.inr (.inr (.inr (decodeRoundCounter_gt h)))))
  · have hc : compressing p = false := by simpa using hc
    by_cases hrc : rc = 0#7
    · subst hrc
      cases p <;> simp_all [compressing, busyPhase, decodeSequencer, phaseCode]
    · simp [decodeSequencer_unreachable hc hrc]

/-- The sequencer waits for a command exactly where the core is ready and `RC = 0`. -/
theorem decodeSequencer_waits_iff (p : Phase) (rc : BitVec 7) :
    decodeSequencer (phaseCode p) rc = .waits ↔ busyPhase p = false ∧ rc = 0#7 := by
  refine ⟨fun h => ?_, fun ⟨hb, hr⟩ => hr ▸ decodeSequencer_ready hb⟩
  rcases decodeSequencer_cases p rc with ⟨hb, hr, -⟩ | ⟨-, -, e⟩ | ⟨-, -, e⟩ | ⟨-, -, e⟩ | ⟨-, -, e⟩ | e
  · exact ⟨hb, hr⟩
  all_goals rw [e] at h; cases h

/-- A command word decodes to a command or is reserved; the sequencer's answers are not among its. -/
theorem decodeCommand_cases (cmd : CommandWord) :
    decodeCommand cmd = .instr .init ∨ decodeCommand cmd = .instr .final ∨
    decodeCommand cmd = .instr .status ∨ (∃ byte, decodeCommand cmd = .instr (.data byte)) ∨
    (∃ idx, decodeCommand cmd = .instr (.read idx)) ∨ decodeCommand cmd = .reserved := by
  unfold decodeCommand
  split_ifs <;> simp

end Sys2Proof.Machine
end

