-- ==== Sys2Proof/Laws/Exec.lean ====
section
/-! SUPPORT. What the shared operations and the meanings do: one lemma per operation, and one inversion
lemma for `exec` that says everything an instruction can do to a state. -/

namespace Sys2Proof.Machine

/-! ## The shapes -/

theorem command_of_ready {s : State} (h : s.busy = false) (f : State → State) :
    command s f = .next (f s) := by simp [command, h]

theorem command_of_busy {s : State} (h : s.busy = true) (f : State → State) :
    command s f = .next s := by simp [command, h]

/-- Everything a command can do: wait, or take its effect. -/
theorem command_next {s t : State} {f : State → State} (h : command s f = .next t) :
    s.busy = true ∧ t = s ∨ s.busy = false ∧ t = f s := by
  unfold command at h
  split at h
  · exact .inl ⟨‹_›, by cases h; rfl⟩
  · exact .inr ⟨eq_false_of_ne_true ‹_›, by cases h; rfl⟩

theorem microStep_selected {b : Bool} (h : b = true) (t : State) : microStep b t = .next t := by
  simp [microStep, h]

theorem microStep_not_selected {b : Bool} (h : b = false) (t : State) :
    microStep b t = .refused .microStepNotSelected := by simp [microStep, h]

/-- Everything a micro-step can do: it is selected and happens, or it is refused. -/
theorem microStep_next {b : Bool} {t u : State} (h : microStep b t = .next u) : b = true ∧ u = t := by
  unfold microStep at h
  split at h
  · exact ⟨‹_›, by cases h; rfl⟩
  · cases h

/-! ## The arms of `exec`, over the shared shapes -/

theorem exec_init (s : State) : exec .init s = command s fun s =>
    if s.err then s else { s with H := IV, len := 0, rc := 0, ph := .absorb } := rfl

theorem exec_final (s : State) : exec .final s = command s fun s =>
    if s.err then s
    else if s.ph ≠ .absorb then s.raise .phaseViolation
    else { s with ph := .pad1 } := rfl

theorem exec_status (s : State) : exec .status s = command s fun s => s.respond s.statusByte := rfl

theorem exec_data (byte : Byte) (s : State) : exec (.data byte) s = command s fun s =>
    if s.err then s
    else if s.ph ≠ .absorb then s.raise .phaseViolation
    else if s.len = maxLen then s.raise .lengthOverflow
    else s.acceptByte byte := rfl

theorem exec_read (idx : BitVec 4) (s : State) : exec (.read idx) s = command s fun s =>
    if s.err then s.respondFree
    else if s.ph ≠ .done then (s.raise .phaseViolation).respondFree
    else s.respond (digestByte s.H idx) := rfl

theorem exec_fmt1 (s : State) : exec .fmt1 s = microStep (decide (s.ph = .pad1 ∧ s.rc = 0#7))
    { s.load with B := Memory.ofFn (fmt1Byte s), ph := .compP1 } := rfl

theorem exec_fmt2 (s : State) : exec .fmt2 s = microStep (decide (s.ph = .pad2 ∧ s.rc = 0#7))
    { s.load with B := Memory.ofFn (fmt2Byte s), ph := .compP2 } := rfl

theorem exec_acc (s : State) : exec .acc s = microStep (compressing s.ph && decide (s.rc = 64#7))
    { s with H := accumulate s.H s.w, rc := 0, ph := nextPhase s.ph s.fill } := rfl

/-! ## The rounds -/

/-- The meaning of `RNDnn` is the round step of its number. -/
theorem exec_roundInstr {n : Nat} (h : n < 64) (s : State) :
    exec (roundInstr n) s = roundStep n s := by
  interval_cases n <;> rfl

/-- Every round instruction is `RNDnn` for one `n` below 64; the rest are named. -/
theorem instr_cases (i : Instr) :
    i = .init ∨ i = .final ∨ i = .status ∨ (∃ byte, i = .data byte) ∨ (∃ idx, i = .read idx) ∨
    i = .fmt1 ∨ i = .fmt2 ∨ (∃ n, n < 64 ∧ i = roundInstr n) ∨ i = .acc := by
  have isRound (n : Nat) {i : Instr} (e : i = roundInstr n) (h : n < 64 := by decide) :
      i = .init ∨ i = .final ∨ i = .status ∨ (∃ byte, i = .data byte) ∨ (∃ idx, i = .read idx) ∨
      i = .fmt1 ∨ i = .fmt2 ∨ (∃ n, n < 64 ∧ i = roundInstr n) ∨ i = .acc :=
    .inr (.inr (.inr (.inr (.inr (.inr (.inr (.inl ⟨n, h, e⟩)))))))
  cases i
  case init => simp
  case final => simp
  case status => simp
  case data => simp
  case read => simp
  case fmt1 => simp
  case fmt2 => simp
  case acc => simp
  case rnd00 => exact isRound 0 rfl
  case rnd01 => exact isRound 1 rfl
  case rnd02 => exact isRound 2 rfl
  case rnd03 => exact isRound 3 rfl
  case rnd04 => exact isRound 4 rfl
  case rnd05 => exact isRound 5 rfl
  case rnd06 => exact isRound 6 rfl
  case rnd07 => exact isRound 7 rfl
  case rnd08 => exact isRound 8 rfl
  case rnd09 => exact isRound 9 rfl
  case rnd10 => exact isRound 10 rfl
  case rnd11 => exact isRound 11 rfl
  case rnd12 => exact isRound 12 rfl
  case rnd13 => exact isRound 13 rfl
  case rnd14 => exact isRound 14 rfl
  case rnd15 => exact isRound 15 rfl
  case rnd16 => exact isRound 16 rfl
  case rnd17 => exact isRound 17 rfl
  case rnd18 => exact isRound 18 rfl
  case rnd19 => exact isRound 19 rfl
  case rnd20 => exact isRound 20 rfl
  case rnd21 => exact isRound 21 rfl
  case rnd22 => exact isRound 22 rfl
  case rnd23 => exact isRound 23 rfl
  case rnd24 => exact isRound 24 rfl
  case rnd25 => exact isRound 25 rfl
  case rnd26 => exact isRound 26 rfl
  case rnd27 => exact isRound 27 rfl
  case rnd28 => exact isRound 28 rfl
  case rnd29 => exact isRound 29 rfl
  case rnd30 => exact isRound 30 rfl
  case rnd31 => exact isRound 31 rfl
  case rnd32 => exact isRound 32 rfl
  case rnd33 => exact isRound 33 rfl
  case rnd34 => exact isRound 34 rfl
  case rnd35 => exact isRound 35 rfl
  case rnd36 => exact isRound 36 rfl
  case rnd37 => exact isRound 37 rfl
  case rnd38 => exact isRound 38 rfl
  case rnd39 => exact isRound 39 rfl
  case rnd40 => exact isRound 40 rfl
  case rnd41 => exact isRound 41 rfl
  case rnd42 => exact isRound 42 rfl
  case rnd43 => exact isRound 43 rfl
  case rnd44 => exact isRound 44 rfl
  case rnd45 => exact isRound 45 rfl
  case rnd46 => exact isRound 46 rfl
  case rnd47 => exact isRound 47 rfl
  case rnd48 => exact isRound 48 rfl
  case rnd49 => exact isRound 49 rfl
  case rnd50 => exact isRound 50 rfl
  case rnd51 => exact isRound 51 rfl
  case rnd52 => exact isRound 52 rfl
  case rnd53 => exact isRound 53 rfl
  case rnd54 => exact isRound 54 rfl
  case rnd55 => exact isRound 55 rfl
  case rnd56 => exact isRound 56 rfl
  case rnd57 => exact isRound 57 rfl
  case rnd58 => exact isRound 58 rfl
  case rnd59 => exact isRound 59 rfl
  case rnd60 => exact isRound 60 rfl
  case rnd61 => exact isRound 61 rfl
  case rnd62 => exact isRound 62 rfl
  case rnd63 => exact isRound 63 rfl

/-! ## Everything an instruction can do -/

/-- What an instruction can do to a state, when it answers a next state. -/
inductive Effect (s : State) : State → Prop where
  /-- A command that waits while the core is busy (R154). -/
  | waits (busy : s.busy = true) : Effect s s
  /-- A command that a frozen core ignores (R177). -/
  | ignored (ready : s.busy = false) (frozen : s.err = true) : Effect s s
  /-- A `READ` on a frozen core (R177). -/
  | frozenRead (ready : s.busy = false) (frozen : s.err = true) : Effect s s.respondFree
  /-- `STATUS` or a `READ` in `DONE` (R158, R168). -/
  | answers (ready : s.busy = false) (b : Byte) : Effect s (s.respond b)
  /-- A command that faults (R176). -/
  | faults (ready : s.busy = false) (sound : s.err = false) (c : Cause) : Effect s (s.raise c)
  /-- A `READ` that faults (R176). -/
  | readFaults (ready : s.busy = false) (sound : s.err = false) :
      Effect s (s.raise .phaseViolation).respondFree
  /-- `INIT` (R155). -/
  | starts (ready : s.busy = false) (sound : s.err = false) :
      Effect s { s with H := IV, len := 0, rc := 0, ph := .absorb }
  /-- `DATA` (R156). -/
  | accepts (sound : s.err = false) (absorbing : s.ph = .absorb) (room : s.len ≠ maxLen)
      (byte : Byte) : Effect s (s.acceptByte byte)
  /-- `FINAL` (R157). -/
  | ends (sound : s.err = false) (absorbing : s.ph = .absorb) : Effect s { s with ph := .pad1 }
  /-- `FMT1` (R138). -/
  | formats1 (sel : s.ph = .pad1) (zero : s.rc = 0#7) :
      Effect s { s.load with B := Memory.ofFn (fmt1Byte s), ph := .compP1 }
  /-- `FMT2` (R139). -/
  | formats2 (sel : s.ph = .pad2) (zero : s.rc = 0#7) :
      Effect s { s.load with B := Memory.ofFn (fmt2Byte s), ph := .compP2 }
  /-- A round (R145). -/
  | rounds (sel : compressing s.ph = true) (n : Nat) (small : n < 64) (count : s.rc = BitVec.ofNat 7 n) :
      Effect s { s with w := roundWords (RT n) (s.B.word (RT n).g) s.w, rc := BitVec.ofNat 7 (n + 1) }
  /-- `ACC` (R146). -/
  | accumulates (sel : compressing s.ph = true) (count : s.rc = 64#7) :
      Effect s { s with H := accumulate s.H s.w, rc := 0, ph := nextPhase s.ph s.fill }

/-- The inversion lemma of `exec`. -/
theorem exec_effect {i : Instr} {s t : State} (h : exec i s = .next t) : Effect s t := by
  rcases instr_cases i with rfl | rfl | rfl | ⟨byte, rfl⟩ | ⟨idx, rfl⟩ | rfl | rfl | ⟨n, hn, rfl⟩ | rfl
  · rw [exec_init] at h
    rcases command_next h with ⟨hb, rfl⟩ | ⟨hb, rfl⟩
    · exact .waits hb
    · split
      · exact .ignored hb ‹_›
      · exact .starts hb (eq_false_of_ne_true ‹_›)
  · rw [exec_final] at h
    rcases command_next h with ⟨hb, rfl⟩ | ⟨hb, rfl⟩
    · exact .waits hb
    · split
      · exact .ignored hb ‹_›
      · rename_i he
        have he := eq_false_of_ne_true he
        split
        · exact .faults hb he _
        · exact .ends he (not_ne_iff.mp ‹_›)
  · rw [exec_status] at h
    rcases command_next h with ⟨hb, rfl⟩ | ⟨hb, rfl⟩
    · exact .waits hb
    · exact .answers hb _
  · rw [exec_data] at h
    rcases command_next h with ⟨hb, rfl⟩ | ⟨hb, rfl⟩
    · exact .waits hb
    · split
      · exact .ignored hb ‹_›
      · rename_i he
        have he := eq_false_of_ne_true he
        split
        · exact .faults hb he _
        · rename_i hp
          split
          · exact .faults hb he _
          · exact .accepts he (not_ne_iff.mp hp) ‹_› byte
  · rw [exec_read] at h
    rcases command_next h with ⟨hb, rfl⟩ | ⟨hb, rfl⟩
    · exact .waits hb
    · split
      · exact .frozenRead hb ‹_›
      · rename_i he
        have he := eq_false_of_ne_true he
        split
        · exact .readFaults hb he
        · exact .answers hb _
  · rw [exec_fmt1] at h
    obtain ⟨hs, rfl⟩ := microStep_next h
    have hs := of_decide_eq_true hs
    exact .formats1 hs.1 hs.2
  · rw [exec_fmt2] at h
    obtain ⟨hs, rfl⟩ := microStep_next h
    have hs := of_decide_eq_true hs
    exact .formats2 hs.1 hs.2
  · rw [exec_roundInstr hn] at h
    obtain ⟨hs, rfl⟩ := microStep_next h
    rw [Bool.and_eq_true] at hs
    exact .rounds hs.1 n hn (of_decide_eq_true hs.2)
  · rw [exec_acc] at h
    obtain ⟨hs, rfl⟩ := microStep_next h
    rw [Bool.and_eq_true] at hs
    exact .accumulates hs.1 (of_decide_eq_true hs.2)

end Sys2Proof.Machine
end

