-- ==== Sys2Proof/Laws/Memory.lean ====
section
/-! SUPPORT. The laws of the block buffer: a read after a write, and that every operation keeps the
canonical form. -/

namespace Sys2Proof.Machine

@[simp] theorem read_nil (a : Nat) : Memory.read [] a = unwrittenByte := rfl

theorem read_head (e : Host.Cell) (m : Memory) (a : Nat) :
    Memory.read (e :: m) a = if e.1 = a then e.2 else Memory.read m a := rfl

/-- An address below every listed one reads as an unlisted address does. -/
theorem read_below {m : Memory} {a : Nat} (h : ∀ e ∈ m, a < e.1) : Memory.read m a = unwrittenByte := by
  induction m with
  | nil => rfl
  | cons e m ih =>
    have he := h e (by simp)
    rw [read_head, if_neg (by omega)]
    exact ih fun x hx => h x (by simp [hx])

theorem read_cons {m : Memory} {a : Nat} (b : Byte) (h : ∀ e ∈ m, a < e.1) (c : Nat) :
    Memory.read (Memory.cons a b m) c = if c = a then b else Memory.read m c := by
  unfold Memory.cons
  split
  · rename_i hb
    split
    · rename_i hc
      rw [hc, hb, read_below h]
    · rfl
  · simp only [read_head, eq_comm]

theorem mem_cons_of {m : Memory} {a : Nat} {b : Byte} {e : Host.Cell} (h : e ∈ Memory.cons a b m) :
    e = (a, b) ∧ b ≠ unwrittenByte ∨ e ∈ m := by
  unfold Memory.cons at h
  split at h
  · exact .inr h
  · rename_i hb
    rcases List.mem_cons.mp h with rfl | h
    · exact .inl ⟨rfl, hb⟩
    · exact .inr h

theorem wf_cons {m : Memory} {a : Nat} (b : Byte) (hm : m.wf) (ha : a < bufferBytes)
    (h : ∀ e ∈ m, a < e.1) : (Memory.cons a b m).wf := by
  unfold Memory.cons
  split
  · exact hm
  · rename_i hb
    exact ⟨List.pairwise_cons.mpr ⟨h, hm.1⟩, fun e he => by
      rcases List.mem_cons.mp he with rfl | he
      · exact ⟨hb, ha⟩
      · exact hm.2 e he⟩

theorem wf_tail {e : Host.Cell} {m : Memory} (h : Memory.wf (e :: m)) : m.wf :=
  ⟨(List.pairwise_cons.mp h.1).2, fun x hx => h.2 x (by simp [hx])⟩

theorem wf_head {e : Host.Cell} {m : Memory} (h : Memory.wf (e :: m)) : ∀ x ∈ m, e.1 < x.1 :=
  (List.pairwise_cons.mp h.1).1

/-- What a write can list: the address it wrote, or what was listed. -/
theorem mem_write {m : Memory} {a : Nat} {b : Byte} {e : Host.Cell} (h : e ∈ Memory.write m a b) :
    e = (a, b) ∧ b ≠ unwrittenByte ∨ e ∈ m := by
  induction m with
  | nil => exact mem_cons_of h
  | cons x m ih =>
    unfold Memory.write at h
    split at h
    · rcases List.mem_cons.mp h with rfl | h
      · exact .inr (by simp)
      · exact (ih h).imp id (by simp +contextual)
    · split at h
      · exact (mem_cons_of h).imp id (by simp +contextual)
      · exact mem_cons_of h

/-- A write keeps the canonical form. -/
theorem wf_write {m : Memory} {a : Nat} (b : Byte) (hm : m.wf) (ha : a < bufferBytes) :
    (Memory.write m a b).wf := by
  induction m with
  | nil => exact wf_cons b hm ha (by simp)
  | cons x m ih =>
    have hx := wf_head hm
    unfold Memory.write
    split
    · rename_i hlt
      refine ⟨List.pairwise_cons.mpr ⟨fun e he => ?_, (ih (wf_tail hm)).1⟩, fun e he => ?_⟩
      · rcases mem_write he with ⟨rfl, -⟩ | he
        · exact hlt
        · exact hx e he
      · rcases List.mem_cons.mp he with rfl | he
        · exact hm.2 _ (by simp)
        · exact (ih (wf_tail hm)).2 e he
    · split
      · rename_i heq
        exact wf_cons b (wf_tail hm) ha fun e he => heq ▸ hx e he
      · refine wf_cons b hm ha fun e he => ?_
        rcases List.mem_cons.mp he with rfl | he
        · omega
        · have := hx e he; omega

/-- What a read after a write gives: the byte written at its address, and every other address as
before. -/
theorem read_write {m : Memory} (hm : m.wf) (a : Nat) (b : Byte) (c : Nat) :
    Memory.read (Memory.write m a b) c = if c = a then b else Memory.read m c := by
  induction m with
  | nil => exact read_cons b (by simp) c
  | cons x m ih =>
    have hx := wf_head hm
    unfold Memory.write
    split
    · rename_i hlt
      rw [read_head, read_head, ih (wf_tail hm)]
      by_cases h : x.1 = c
      · rw [if_pos h, if_pos h, if_neg (by omega)]
      · rw [if_neg h, if_neg h]
    · split
      · rename_i heq
        rw [read_cons b (fun e he => heq ▸ hx e he), read_head]
        by_cases h : c = a
        · rw [if_pos h, if_pos h]
        · rw [if_neg h, if_neg h, if_neg (by omega)]
      · exact read_cons b (fun e he => by
          rcases List.mem_cons.mp he with rfl | he
          · omega
          · have := hx e he; omega) c

@[simp] theorem read_write_same {m : Memory} (hm : m.wf) (a : Nat) (b : Byte) :
    Memory.read (Memory.write m a b) a = b := by simp [read_write hm]

theorem read_write_other {m : Memory} (hm : m.wf) {a c : Nat} (b : Byte) (h : c ≠ a) :
    Memory.read (Memory.write m a b) c = Memory.read m c := by simp [read_write hm, h]

theorem mem_ofFnFrom {f : Nat → Byte} {a n : Nat} {e : Host.Cell} (h : e ∈ Memory.ofFnFrom f a n) :
    a ≤ e.1 ∧ e.1 < a + n := by
  induction n generalizing a with
  | zero => simp [Memory.ofFnFrom] at h
  | succ n ih =>
    rcases mem_cons_of h with ⟨rfl, -⟩ | h
    · simp
    · have := ih h; omega

theorem wf_ofFnFrom (f : Nat → Byte) {a n : Nat} (h : a + n ≤ bufferBytes) :
    (Memory.ofFnFrom f a n).wf := by
  induction n generalizing a with
  | zero => exact ⟨List.Pairwise.nil, by simp [Memory.ofFnFrom]⟩
  | succ n ih =>
    exact wf_cons _ (ih (by omega)) (by omega) fun e he => (mem_ofFnFrom he).1

theorem read_ofFnFrom (f : Nat → Byte) (a n c : Nat) :
    Memory.read (Memory.ofFnFrom f a n) c = if a ≤ c ∧ c < a + n then f c else unwrittenByte := by
  induction n generalizing a with
  | zero => rw [if_neg (by omega)]; rfl
  | succ n ih =>
    rw [Memory.ofFnFrom, read_cons _ fun e he => (mem_ofFnFrom he).1, ih]
    by_cases h : c = a
    · subst h; simp
    · rw [if_neg h]
      exact if_congr (by omega) rfl rfl

/-- A rewritten buffer is in canonical form. -/
theorem wf_ofFn (f : Nat → Byte) : (Memory.ofFn f).wf := wf_ofFnFrom f (by simp)

/-- What a read of a rewritten buffer gives. -/
theorem read_ofFn (f : Nat → Byte) (c : Nat) :
    Memory.read (Memory.ofFn f) c = if c < bufferBytes then f c else unwrittenByte := by
  simp [Memory.ofFn, read_ofFnFrom]

/-- The buffer at reset is in canonical form. -/
theorem wf_reset : State.reset.B.wf := ⟨List.Pairwise.nil, by simp [State.reset]⟩

/-- Two buffers in canonical form that read alike are the same data. -/
theorem memory_ext {m n : Memory} (hm : m.wf) (hn : n.wf) (h : ∀ a, m.read a = n.read a) : m = n := by
  induction m generalizing n with
  | nil =>
    cases n with
    | nil => rfl
    | cons y n =>
      have := h y.1
      rw [read_head, if_pos rfl] at this
      exact absurd this.symm (hn.2 y (by simp)).1
  | cons x m ih =>
    have hx := hm.2 x (by simp)
    cases n with
    | nil =>
      have := h x.1
      rw [read_head, if_pos rfl] at this
      exact absurd this hx.1
    | cons y n =>
      have hy := hn.2 y (by simp)
      have hxy : x.1 = y.1 := by
        rcases Nat.lt_trichotomy x.1 y.1 with hlt | heq | hgt
        · have := h x.1
          rw [read_head, if_pos rfl, read_below (m := y :: n) fun e he => by
            rcases List.mem_cons.mp he with rfl | he
            · exact hlt
            · exact Nat.lt_trans hlt (wf_head hn e he)] at this
          exact absurd this hx.1
        · exact heq
        · have := h y.1
          rw [read_head (y), if_pos rfl, read_below (m := x :: m) fun e he => by
            rcases List.mem_cons.mp he with rfl | he
            · exact hgt
            · exact Nat.lt_trans hgt (wf_head hm e he)] at this
          exact absurd this.symm hy.1
      have hval : x.2 = y.2 := by
        have := h x.1
        rwa [read_head, if_pos rfl, read_head, if_pos hxy.symm] at this
      have hrest : m = n := ih (wf_tail hm) (wf_tail hn) fun a => by
        by_cases ha : x.1 = a
        · rw [read_below (m := m) fun e he => ha ▸ wf_head hm e he,
            read_below (m := n) fun e he => ha ▸ hxy ▸ wf_head hn e he]
        · have := h a
          rwa [read_head, if_neg ha, read_head, if_neg (hxy ▸ ha)] at this
      rw [hrest, Prod.ext hxy hval]

/-- A byte of the buffer's list of bytes is the byte at that address. -/
theorem bytes_getD (m : Memory) {a : Nat} (h : a < bufferBytes) (d : Byte) :
    m.bytes.getD a d = m.read a := by
  simp [Memory.bytes, List.getD_eq_getElem?_getD, h]

@[simp] theorem bytes_length (m : Memory) : m.bytes.length = bufferBytes := by simp [Memory.bytes]

end Sys2Proof.Machine
end

