-- ==== Sys2Proof/Laws/Padder.lean ====
section
/-! SUPPORT. Where `Pad` and the digest are defined, and what they are there (R134, R141, R166). -/

namespace Sys2Proof.Machine

@[simp] theorem maxLen_toNat : maxLen.toNat = 2305843009213693951 := rfl

theorem pad_of_le {msg : List Byte} (h : msg.length ≤ maxLen.toNat) :
    pad msg = some (msg ++ [0x80#8] ++ List.replicate (padZeros msg.length) 0x00#8 ++
      footer msg.length h) := dif_pos h

theorem pad_of_gt {msg : List Byte} (h : maxLen.toNat < msg.length) : pad msg = none :=
  dif_neg (Nat.not_le.mpr h)

@[simp] theorem footer_length {len : Nat} (h : len ≤ maxLen.toNat) : (footer len h).length = 8 := rfl

theorem md5State_of_pad {msg padded : List Byte} (h : pad msg = some padded) :
    md5State msg = some (foldBlocks padded (numBlocks msg.length)) := by simp [md5State, h]

theorem md5State_of_gt {msg : List Byte} (h : maxLen.toNat < msg.length) : md5State msg = none := by
  simp [md5State, pad_of_gt h]

theorem md5_of_state {msg : List Byte} {d : DigestState} (h : md5State msg = some d) :
    md5 msg = some (ser d) := by simp [md5, h]

theorem md5_of_gt {msg : List Byte} (h : maxLen.toNat < msg.length) : md5 msg = none := by
  simp [md5, md5State_of_gt h]

end Sys2Proof.Machine
end

