-- ==== Sys2Proof/Laws/PerInstr.lean ====
section
/-! SUPPORT. The family `EncodeLegal`, one lemma per instruction: its word is no reserved command word and
no unreachable sequencer state (R60, R65), and no other instruction stands for a row of the table. -/

namespace Sys2Proof.Laws

/-- Every instruction is well formed: no operand can be out of range (R47, R59). -/
theorem instr_wellFormed (i : Instr) : i.wellFormed = true := by
  cases i <;> simp [Instr.wellFormed] <;> omega

namespace EncodeLegal

/-- The word of the instruction is well formed, and its fixed bits are those of its format: a command's in
`cmd[9:8]` (R55), a micro-step's `PH` in 2 to 4 (R64). -/
def Statement (i : Instr) : Prop := (encode i).wellFormed = true

theorem init : Statement .init := rfl

theorem final : Statement .final := rfl

theorem status : Statement .status := rfl

theorem data (byte : Byte) : Statement (.data byte) := by
  have h : (0b01#2 ++ byte : CommandWord).toNat = 256 + byte.toNat := by
    rw [BitVec.toNat_append, Nat.shiftLeft_eq]
    exact Nat.two_pow_add_eq_or_of_lt byte.isLt 1 ▸ rfl
  simp only [Statement, encode, CodeWord.wellFormed, CommandReserved, decide_eq_true_eq, h]
  have := byte.isLt
  omega

theorem read (idx : BitVec 4) : Statement (.read idx) := by
  revert idx
  unfold Statement
  decide

theorem fmt1 : Statement .fmt1 := rfl

theorem fmt2 : Statement .fmt2 := rfl

theorem rnd00 : Statement .rnd00 := rfl

theorem rnd01 : Statement .rnd01 := rfl

theorem rnd02 : Statement .rnd02 := rfl

theorem rnd03 : Statement .rnd03 := rfl

theorem rnd04 : Statement .rnd04 := rfl

theorem rnd05 : Statement .rnd05 := rfl

theorem rnd06 : Statement .rnd06 := rfl

theorem rnd07 : Statement .rnd07 := rfl

theorem rnd08 : Statement .rnd08 := rfl

theorem rnd09 : Statement .rnd09 := rfl

theorem rnd10 : Statement .rnd10 := rfl

theorem rnd11 : Statement .rnd11 := rfl

theorem rnd12 : Statement .rnd12 := rfl

theorem rnd13 : Statement .rnd13 := rfl

theorem rnd14 : Statement .rnd14 := rfl

theorem rnd15 : Statement .rnd15 := rfl

theorem rnd16 : Statement .rnd16 := rfl

theorem rnd17 : Statement .rnd17 := rfl

theorem rnd18 : Statement .rnd18 := rfl

theorem rnd19 : Statement .rnd19 := rfl

theorem rnd20 : Statement .rnd20 := rfl

theorem rnd21 : Statement .rnd21 := rfl

theorem rnd22 : Statement .rnd22 := rfl

theorem rnd23 : Statement .rnd23 := rfl

theorem rnd24 : Statement .rnd24 := rfl

theorem rnd25 : Statement .rnd25 := rfl

theorem rnd26 : Statement .rnd26 := rfl

theorem rnd27 : Statement .rnd27 := rfl

theorem rnd28 : Statement .rnd28 := rfl

theorem rnd29 : Statement .rnd29 := rfl

theorem rnd30 : Statement .rnd30 := rfl

theorem rnd31 : Statement .rnd31 := rfl

theorem rnd32 : Statement .rnd32 := rfl

theorem rnd33 : Statement .rnd33 := rfl

theorem rnd34 : Statement .rnd34 := rfl

theorem rnd35 : Statement .rnd35 := rfl

theorem rnd36 : Statement .rnd36 := rfl

theorem rnd37 : Statement .rnd37 := rfl

theorem rnd38 : Statement .rnd38 := rfl

theorem rnd39 : Statement .rnd39 := rfl

theorem rnd40 : Statement .rnd40 := rfl

theorem rnd41 : Statement .rnd41 := rfl

theorem rnd42 : Statement .rnd42 := rfl

theorem rnd43 : Statement .rnd43 := rfl

theorem rnd44 : Statement .rnd44 := rfl

theorem rnd45 : Statement .rnd45 := rfl

theorem rnd46 : Statement .rnd46 := rfl

theorem rnd47 : Statement .rnd47 := rfl

theorem rnd48 : Statement .rnd48 := rfl

theorem rnd49 : Statement .rnd49 := rfl

theorem rnd50 : Statement .rnd50 := rfl

theorem rnd51 : Statement .rnd51 := rfl

theorem rnd52 : Statement .rnd52 := rfl

theorem rnd53 : Statement .rnd53 := rfl

theorem rnd54 : Statement .rnd54 := rfl

theorem rnd55 : Statement .rnd55 := rfl

theorem rnd56 : Statement .rnd56 := rfl

theorem rnd57 : Statement .rnd57 := rfl

theorem rnd58 : Statement .rnd58 := rfl

theorem rnd59 : Statement .rnd59 := rfl

theorem rnd60 : Statement .rnd60 := rfl

theorem rnd61 : Statement .rnd61 := rfl

theorem rnd62 : Statement .rnd62 := rfl

theorem rnd63 : Statement .rnd63 := rfl

theorem acc : Statement .acc := rfl

end EncodeLegal

end Sys2Proof.Laws
end

