-- ==== Sys2Proof/Laws/Step.lean ====
section
/-! SUPPORT. What a step can do: one inversion lemma, from which the invariants are derived, and the small
lemmas of several steps. -/

namespace Sys2Proof.Machine

theorem noReset_of_command {s : State} {cmd : CommandWord} {rest : List HostEvent}
    (h : s.host = .command cmd :: rest) : s.noReset = true := by simp [State.noReset, h]

theorem fetch_of_noReset {s : State} (h : s.noReset = true) : fetch s = fetchSequenced s := by
  unfold fetch
  split
  · simp_all [State.noReset]
  · rfl

theorem fetch_of_reset {s : State} {rest : List HostEvent} (h : s.host = .reset :: rest) :
    fetch s = .reset { s with host := rest } := by simp [fetch, h]

/-- Everything a step can do, when it answers a next state. -/
inductive Next (s : State) : State → Prop where
  /-- A requested reset (R187). -/
  | resets (rest : List HostEvent) (asked : s.host = .reset :: rest) :
      Next s (State.resetEvent { s with host := rest })
  /-- The micro-step that `{PH, RC}` selects (R163(a)). -/
  | micro {t : State} (i : Instr) (quiet : s.noReset = true)
      (selected : decodeSequencer (phaseCode s.ph) s.rc = .instr i)
      (runs : exec i s.hostWaits = .next t) : Next s t
  /-- A command that is accepted (R163(b)). -/
  | accepts {t : State} (cmd : CommandWord) (i : Instr) (rest : List HostEvent)
      (presented : s.host = .command cmd :: rest)
      (ready : decodeSequencer (phaseCode s.ph) s.rc = .waits) (legal : decodeCommand cmd = .instr i)
      (runs : exec i { s with host := rest } = .next t) : Next s t
  /-- A reserved word that is accepted (R173). -/
  | illegal (cmd : CommandWord) (rest : List HostEvent) (presented : s.host = .command cmd :: rest)
      (ready : decodeSequencer (phaseCode s.ph) s.rc = .waits)
      (reserved : decodeCommand cmd = .reserved) :
      Next s (State.illegalCommand { s with host := rest })
  /-- A ready core to which no command is presented (R184). -/
  | idles (quiet : s.noReset = true) (ready : decodeSequencer (phaseCode s.ph) s.rc = .waits) :
      Next s s.hostWaits

theorem fetchSequenced_of_instr {s : State} {i : Instr}
    (h : decodeSequencer (phaseCode s.ph) s.rc = .instr i) :
    fetchSequenced s = .run i s.hostWaits := by simp [fetchSequenced, h]

theorem fetchSequenced_of_waits {s : State} (h : decodeSequencer (phaseCode s.ph) s.rc = .waits) :
    fetchSequenced s = fetchCommand s := by simp [fetchSequenced, h]

theorem fetchCommand_of_instr {s : State} {cmd : CommandWord} {rest : List HostEvent} {i : Instr}
    (h : s.host = .command cmd :: rest) (hi : decodeCommand cmd = .instr i) :
    fetchCommand s = .run i { s with host := rest } := by simp [fetchCommand, h, hi]

theorem fetchCommand_of_reserved {s : State} {cmd : CommandWord} {rest : List HostEvent}
    (h : s.host = .command cmd :: rest) (hi : decodeCommand cmd = .reserved) :
    fetchCommand s = .illegal { s with host := rest } := by simp [fetchCommand, h, hi]

theorem fetchCommand_of_no_command {s : State} (h : ∀ cmd rest, s.host ≠ .command cmd :: rest) :
    fetchCommand s = .waits s.hostWaits := by
  unfold fetchCommand
  split
  · exact absurd ‹_› (h _ _)
  · rfl

/-- A ready core: either a command is presented, legal or reserved, or nothing happens. -/
theorem fetchCommand_cases (s : State) :
    (∃ cmd rest i, s.host = .command cmd :: rest ∧ decodeCommand cmd = .instr i ∧
      fetchCommand s = .run i { s with host := rest }) ∨
    (∃ cmd rest, s.host = .command cmd :: rest ∧ decodeCommand cmd = .reserved ∧
      fetchCommand s = .illegal { s with host := rest }) ∨
    ((∀ cmd rest, s.host ≠ .command cmd :: rest) ∧ fetchCommand s = .waits s.hostWaits) := by
  by_cases h : ∃ cmd rest, s.host = .command cmd :: rest
  · obtain ⟨cmd, rest, h⟩ := h
    rcases decodeCommand_cases cmd with e | e | e | ⟨_, e⟩ | ⟨_, e⟩ | e
    case inr.inr.inr.inr.inr => exact .inr (.inl ⟨cmd, rest, h, e, fetchCommand_of_reserved h e⟩)
    all_goals exact .inl ⟨cmd, rest, _, h, e, fetchCommand_of_instr h e⟩
  · simp only [not_exists] at h
    exact .inr (.inr ⟨h, fetchCommand_of_no_command h⟩)

/-- The inversion lemma of `step`. -/
theorem step_next {s t : State} (h : step s = .next t) : Next s t := by
  unfold step at h
  by_cases hr : s.noReset = true
  · rw [fetch_of_noReset hr] at h
    cases hd : decodeSequencer (phaseCode s.ph) s.rc with
    | instr i =>
      rw [fetchSequenced_of_instr hd] at h
      exact .micro i hr hd h
    | reserved => simp [fetchSequenced, hd] at h
    | unreachable => simp [fetchSequenced, hd] at h
    | waits =>
      rw [fetchSequenced_of_waits hd] at h
      rcases fetchCommand_cases s with
        ⟨cmd, rest, i, hc, hi, hf⟩ | ⟨cmd, rest, hc, hi, hf⟩ | ⟨-, hf⟩ <;> rw [hf] at h
      · exact .accepts cmd i rest hc hd hi h
      · cases h
        exact .illegal cmd rest hc hd hi
      · cases h
        exact .idles hr hd
  · unfold State.noReset at hr
    split at hr
    · rename_i rest hc
      rw [fetch_of_reset hc] at h
      cases h
      exact .resets rest hc
    · simp at hr

/-! ## Several steps -/

@[simp] theorem steps_zero (s : State) : steps 0 s = .next s := rfl

theorem steps_succ_of_next {s t : State} (h : step s = .next t) (n : Nat) :
    steps (n + 1) s = steps n t := by simp [steps, h]

theorem steps_add {m n : Nat} {s t : State} (h : steps m s = .next t) :
    steps (m + n) s = steps n t := by
  induction m generalizing s with
  | zero => cases h; simp
  | succ m ih =>
    cases hs : step s with
    | next u =>
      rw [steps_succ_of_next hs] at h
      rw [Nat.succ_add, steps_succ_of_next hs, ih h]
    | fault r => cases r
    | refused r => simp [steps, hs] at h

/-- Two runs of steps one after the other. -/
theorem steps_trans {m n : Nat} {s t u : State} (h : steps m s = .next t) (g : steps n t = .next u) :
    steps (m + n) s = .next u := (steps_add h).trans g

end Sys2Proof.Machine
end

