-- ==== Sys2Proof/Tests/Slice0.lean ====
section
/-! SUPPORT. Tests on values from the spec (its worked examples and 95_test_vectors.md), the smoke tests of
WellFormed, and for every statement with hypotheses a witness that meets them. -/

open Sys2Proof Sys2Proof.Machine Sys2Proof.Statements

namespace Sys2Proof.Tests

/-! ## Small states -/

/-- The reset state with a phase. -/
def inPhase (p : Phase) : State := { State.reset with ph := p }

/-- The reset state with a phase and a round counter. -/
def counting (p : Phase) (rc : BitVec 7) : State := { State.reset with ph := p, rc := rc }

/-- A state with a recorded `PhaseViolation`. -/
def faulted (p : Phase) : State := { State.reset with ph := p, err := true, ecode := 2#3 }

/-- A state to which the host is presenting these words. -/
def presenting (p : Phase) (cmds : List CommandWord) : State :=
  { State.reset with ph := p, host := present cmds }

/-- A state with a message length. -/
def withLen (p : Phase) (len : BitVec 61) : State := { State.reset with ph := p, len := len }

/-- What a test looks at in a next state. -/
def after {α : Type} (o : Host.Outcome State Fault Refusal) (f : State → α) : Option α :=
  match o with
  | .next t => some (f t)
  | .fault _ => none
  | .refused _ => none

/-- The block of "abc" (95_test_vectors.md section 1.2): bytes 0 to 3 and byte 56. -/
def abcBlock : Memory := [(0, 0x61#8), (1, 0x62#8), (2, 0x63#8), (3, 0x80#8), (56, 0x18#8)]

/-- The final digest state of the empty message (95_test_vectors.md section 1.1). -/
def emptyDigest : DigestState := ⟨0xD98C1DD4#32, 0x04B2008F#32, 0x980980E9#32, 0x7E42F8EC#32⟩

/-! ## Decoding, from words written out bit by bit -/

/-- The commands (R56 to R58; 95_test_vectors.md section 7.1). -/
theorem test_decode_commands : ∀ e ∈ (
  [(0b0000000001#10, .init), (0b0000000010#10, .final), (0b0000000011#10, .status),
   (0b0100000000#10, .data 0x00#8), (0b0101100001#10, .data 0x61#8),
   (0b0110000000#10, .data 0x80#8), (0b0111111111#10, .data 0xFF#8),
   (0b1000000000#10, .read 0#4), (0b1000001111#10, .read 15#4)] : List (CommandWord × Instr)),
    decode (.command e.1) = .instr e.2 := by decide

/-- The formatters and `ACC` (R64). -/
theorem test_decode_formatters_and_acc :
    decode (.sequencer 0b010#3 0b0000000#7) = .instr .fmt1 ∧
    decode (.sequencer 0b011#3 0b0000000#7) = .instr .fmt2 ∧
    decode (.sequencer 0b100#3 0b1000000#7) = .instr .acc ∧
    decode (.sequencer 0b110#3 0b1000000#7) = .instr .acc := by decide

/-- `RC` written bit by bit (R64), with `PH = 4`: rounds 0 to 15. -/
theorem test_decode_rounds_0 : ∀ e ∈ (
  [(0b0000000#7, .rnd00), (0b0000001#7, .rnd01), (0b0000010#7, .rnd02), (0b0000011#7, .rnd03),
   (0b0000100#7, .rnd04), (0b0000101#7, .rnd05), (0b0000110#7, .rnd06), (0b0000111#7, .rnd07),
   (0b0001000#7, .rnd08), (0b0001001#7, .rnd09), (0b0001010#7, .rnd10), (0b0001011#7, .rnd11),
   (0b0001100#7, .rnd12), (0b0001101#7, .rnd13), (0b0001110#7, .rnd14), (0b0001111#7, .rnd15)] : List (BitVec 7 × Instr)),
    decode (.sequencer 4#3 e.1) = .instr e.2 := by decide

/-- `RC` written bit by bit (R64), with `PH = 5`: rounds 16 to 31. -/
theorem test_decode_rounds_16 : ∀ e ∈ (
  [(0b0010000#7, .rnd16), (0b0010001#7, .rnd17), (0b0010010#7, .rnd18), (0b0010011#7, .rnd19),
   (0b0010100#7, .rnd20), (0b0010101#7, .rnd21), (0b0010110#7, .rnd22), (0b0010111#7, .rnd23),
   (0b0011000#7, .rnd24), (0b0011001#7, .rnd25), (0b0011010#7, .rnd26), (0b0011011#7, .rnd27),
   (0b0011100#7, .rnd28), (0b0011101#7, .rnd29), (0b0011110#7, .rnd30), (0b0011111#7, .rnd31)] : List (BitVec 7 × Instr)),
    decode (.sequencer 5#3 e.1) = .instr e.2 := by decide

/-- `RC` written bit by bit (R64), with `PH = 6`: rounds 32 to 47. -/
theorem test_decode_rounds_32 : ∀ e ∈ (
  [(0b0100000#7, .rnd32), (0b0100001#7, .rnd33), (0b0100010#7, .rnd34), (0b0100011#7, .rnd35),
   (0b0100100#7, .rnd36), (0b0100101#7, .rnd37), (0b0100110#7, .rnd38), (0b0100111#7, .rnd39),
   (0b0101000#7, .rnd40), (0b0101001#7, .rnd41), (0b0101010#7, .rnd42), (0b0101011#7, .rnd43),
   (0b0101100#7, .rnd44), (0b0101101#7, .rnd45), (0b0101110#7, .rnd46), (0b0101111#7, .rnd47)] : List (BitVec 7 × Instr)),
    decode (.sequencer 6#3 e.1) = .instr e.2 := by decide

/-- `RC` written bit by bit (R64), with `PH = 5`: rounds 48 to 63. -/
theorem test_decode_rounds_48 : ∀ e ∈ (
  [(0b0110000#7, .rnd48), (0b0110001#7, .rnd49), (0b0110010#7, .rnd50), (0b0110011#7, .rnd51),
   (0b0110100#7, .rnd52), (0b0110101#7, .rnd53), (0b0110110#7, .rnd54), (0b0110111#7, .rnd55),
   (0b0111000#7, .rnd56), (0b0111001#7, .rnd57), (0b0111010#7, .rnd58), (0b0111011#7, .rnd59),
   (0b0111100#7, .rnd60), (0b0111101#7, .rnd61), (0b0111110#7, .rnd62), (0b0111111#7, .rnd63)] : List (BitVec 7 × Instr)),
    decode (.sequencer 5#3 e.1) = .instr e.2 := by decide

/-- The table's rows by number of bits; a row of 3 bits and a row of 7 bits are both 8 bits in whole bytes
(log entry 11). -/
theorem test_decode_table_words :
    decodeTableWord 10 0x001 = some .init ∧ decodeTableWord 16 0x161 = some (.data 0x61#8) ∧
    decodeTableWord 10 0x000 = none ∧ decodeTableWord 3 2 = some .fmt1 ∧
    decodeTableWord 3 3 = some .fmt2 ∧ decodeTableWord 3 4 = none ∧ decodeTableWord 3 0 = none ∧
    decodeTableWord 7 2 = some .rnd02 ∧ decodeTableWord 8 2 = some .fmt1 ∧
    decodeTableWord 8 17 = some .rnd17 ∧ decodeTableWord 8 64 = some .acc ∧
    decodeTableWord 8 65 = none := by decide

/-! ## WellFormed: words each check refuses, and their neighbours that it lets through -/

/-- The reserved ranges of R60, each end. -/
theorem test_reserved_words_ill_formed : ∀ cmd ∈ (
  [0x000#10, 0x004#10, 0x0FF#10, 0x210#10, 0x2FF#10, 0x300#10, 0x3FF#10] : List CommandWord),
    CodeWord.wellFormed (.command cmd) = false ∧ decode (.command cmd) = .reserved := by decide

/-- The legal words beside them. -/
theorem test_legal_words_well_formed : ∀ cmd ∈ (
  [0x001#10, 0x003#10, 0x100#10, 0x1FF#10, 0x200#10, 0x20F#10] : List CommandWord),
    CodeWord.wellFormed (.command cmd) = true := by decide

/-- Both clauses of R65: `RC` above 64, and `RC` non-zero outside a compression phase. -/
theorem test_unreachable_sequencer_ill_formed :
    CodeWord.wellFormed (.sequencer 4#3 65#7) = false ∧
    CodeWord.wellFormed (.sequencer 6#3 127#7) = false ∧
    CodeWord.wellFormed (.sequencer 0#3 1#7) = false ∧
    CodeWord.wellFormed (.sequencer 2#3 64#7) = false ∧
    CodeWord.wellFormed (.sequencer 4#3 64#7) = true ∧
    CodeWord.wellFormed (.sequencer 7#3 0#7) = true ∧
    decode (.sequencer 4#3 65#7) = .unreachable ∧ decode (.sequencer 0#3 1#7) = .unreachable ∧
    decode (.sequencer 7#3 0#7) = .waits := by decide

/-- Operands out of range are assembly errors (R66, R67). -/
theorem test_lines_ill_formed :
    lineWellFormed (.data 256) = false ∧ lineWellFormed (.read 16) = false ∧
    lineWellFormed (.word 0x400) = false ∧ lineWellFormed (.rep 1 256) = false ∧
    lineWellFormed (.msg [1, 256]) = false ∧ lineWellFormed (.msgText ['a', '\n']) = false ∧
    lineWellFormed (.hash ['é']) = false ∧
    lineWellFormed (.data 255) = true ∧ lineWellFormed (.read 15) = true := by decide

/-- The words of `HASH "abc"` (R67). -/
theorem test_hash_abc_words : assemble [.hash ['a', 'b', 'c']] = some
    [0x001#10, 0x161#10, 0x162#10, 0x163#10, 0x002#10, 0x200#10, 0x201#10, 0x202#10, 0x203#10, 0x204#10,
     0x205#10, 0x206#10, 0x207#10, 0x208#10, 0x209#10, 0x20A#10, 0x20B#10, 0x20C#10, 0x20D#10, 0x20E#10,
     0x20F#10] := by decide

/-- Text (R66, R67): comments, both forms of numbers, `MSG`, `REP`, an empty line; and lines that are
refused. -/
theorem test_assemble_text :
    assembleText ['D', 'A', 'T', 'A', ' ', '0', 'x', '6', '1', ' ', ';', 'x', '\n', '\n',
      'R', 'E', 'P', ' ', '2', ' ', '1', '2', '8', '\n', 'M', 'S', 'G', ' ', '"', 'a', ';', '"'] =
      some [0x161#10, 0x180#10, 0x180#10, 0x161#10, 0x13B#10] ∧
    assembleText ['M', 'S', 'G', ' ', '"', '"'] = some [] ∧
    assembleText ['.', 'w', 'o', 'r', 'd', ' ', '0', 'x', '3', 'F', 'f'] = some [0x3FF#10] ∧
    assembleText ['D', 'A', 'T', 'A', ' ', '2', '5', '6'] = none ∧
    assembleText ['i', 'n', 'i', 't'] = none ∧
    assembleText ['R', 'E', 'A', 'D'] = none ∧
    assembleText ['D', 'A', 'T', 'A', ' ', '0', 'x'] = none := by decide

/-! ## Primitives (95_test_vectors.md section 2) -/

/-- `add32` (section 2.1). -/
theorem test_add32 :
    add32 0xFFFFFFFF#32 1#32 = 0#32 ∧ add32 0xEFCDAB89#32 0x14E45506#32 = 0x04B2008F#32 ∧
    add32x4 0x67452301#32 0x98BADCFE#32 0x00000080#32 0xD76AA478#32 = 0xD76AA4F7#32 ∧
    add32x4 0xFFFFFFFF#32 0xFFFFFFFF#32 0xFFFFFFFF#32 0xFFFFFFFF#32 = 0xFFFFFFFC#32 := by decide

/-- `rotl32` (section 2.2). -/
theorem test_rotl32 :
    rotl32 0x80000000#32 1 = 1#32 ∧ rotl32 0x12345678#32 4 = 0x23456781#32 ∧
    rotl32 0x12345678#32 23 = 0x3C091A2B#32 ∧ rotl32 0x12345678#32 0 = 0x12345678#32 ∧
    rotl32 0x12345678#32 32 = 0x12345678#32 ∧ rotl32 0x12345678#32 36 = 0x23456781#32 := by decide

/-- `F`, `G`, `H`, `I` (section 2.3, first and seventh rows). -/
theorem test_mix :
    mixF 0xEFCDAB89#32 0x98BADCFE#32 0x10325476#32 = 0x98BADCFE#32 ∧
    mixG 0xEFCDAB89#32 0x98BADCFE#32 0x10325476#32 = 0x88888888#32 ∧
    mixH 0xEFCDAB89#32 0x98BADCFE#32 0x10325476#32 = 0x67452301#32 ∧
    mixI 0xEFCDAB89#32 0x98BADCFE#32 0x10325476#32 = 0x77777777#32 ∧
    mixF 0xFFFF0000#32 0x00FF00FF#32 0x0F0F0F0F#32 = 0x00FF0F0F#32 ∧
    mixG 0xFFFF0000#32 0x00FF00FF#32 0x0F0F0F0F#32 = 0x0FFF00F0#32 ∧
    mixH 0xFFFF0000#32 0x00FF00FF#32 0x0F0F0F0F#32 = 0xF00F0FF0#32 ∧
    mixI 0xFFFF0000#32 0x00FF00FF#32 0x0F0F0F0F#32 = 0xFF00F00F#32 := by decide

/-- `g` (section 2.4, spot checks). -/
theorem test_word_index :
    [16, 31, 32, 47, 48, 63].map wordIndex = [1, 12, 5, 2, 0, 9] := by decide

/-- `le32`, `bytes32`, `bytes64` (section 2.5). -/
theorem test_le :
    le32 0x61#8 0x62#8 0x63#8 0x80#8 = 0x80636261#32 ∧
    bytes32 0xD98C1DD4#32 = [0xD4#8, 0x1D#8, 0x8C#8, 0xD9#8] ∧
    bytes64 448#64 = [0xC0#8, 0x01#8, 0#8, 0#8, 0#8, 0#8, 0#8, 0#8] ∧
    bytes64 8000000#64 = [0x00#8, 0x12#8, 0x7A#8, 0#8, 0#8, 0#8, 0#8, 0#8] := by decide

/-- `Ser` (section 6, third and fourth rows). -/
theorem test_ser :
    ser ⟨0#32, 0#32, 0#32, 0x80000000#32⟩ =
      [0#8, 0#8, 0#8, 0#8, 0#8, 0#8, 0#8, 0#8, 0#8, 0#8, 0#8, 0#8, 0#8, 0#8, 0#8, 0x80#8] ∧
    ser ⟨0x03020100#32, 0x07060504#32, 0x0B0A0908#32, 0x0F0E0D0C#32⟩ =
      [0#8, 1#8, 2#8, 3#8, 4#8, 5#8, 6#8, 7#8, 8#8, 9#8, 10#8, 11#8, 12#8, 13#8, 14#8, 15#8] := by decide

/-- Lengths (section 4.1): zero bytes, blocks. -/
theorem test_padding_lengths :
    [0, 1, 54, 55, 56, 63, 64, 119, 120].map padZeros = [55, 54, 1, 0, 63, 56, 55, 0, 63] ∧
    [0, 1, 54, 55, 56, 63, 64, 119, 120].map numBlocks = [1, 1, 1, 1, 2, 2, 2, 2, 3] := by decide

/-- `Pad` of "abc" (section 1.2): 52 zero bytes, then the footer `18 00 ...`. -/
theorem test_pad_abc : pad [0x61#8, 0x62#8, 0x63#8] = some ([0x61#8, 0x62#8, 0x63#8, 0x80#8] ++
    List.replicate 52 0x00#8 ++ [0x18#8, 0#8, 0#8, 0#8, 0#8, 0#8, 0#8, 0#8]) := by decide

/-- Micro-steps of a run (section 5). -/
theorem test_micro_step_counts :
    [0, 55, 56, 63, 64, 119, 120, 128, 1000].map microStepCount =
      [66, 66, 132, 132, 131, 131, 197, 196, 1041] := by decide

/-! ## The round table and the rounds -/

/-- The packed words of rounds 0 to 15 agree with the rules R70 to R85. -/
theorem test_packed_table_0 : ((List.range' 0 16).map fun r => packEntry (RT r)) =
  [0x007D76AA478#43, 0x02CE8C7B756#43, 0x051242070DB#43, 0x076C1BDCEEE#43,
   0x087F57C0FAF#43, 0x0AC4787C62A#43, 0x0D1A8304613#43, 0x0F6FD469501#43,
   0x107698098D8#43, 0x12C8B44F7AF#43, 0x151FFFF5BB1#43, 0x176895CD7BE#43,
   0x1876B901122#43, 0x1ACFD987193#43, 0x1D1A679438E#43, 0x1F649B40821#43] := by decide

/-- The packed words of rounds 16 to 31 agree with the rules R86 to R101. -/
theorem test_packed_table_16 : ((List.range' 16 16).map fun r => packEntry (RT r)) =
  [0x225F61E2562#43, 0x2C9C040B340#43, 0x36E265E5A51#43, 0x214E9B6C7AA#43,
   0x2A5D62F105D#43, 0x34902441453#43, 0x3EED8A1E681#43, 0x294E7D3FBC8#43,
   0x32521E1CDE6#43, 0x3C9C33707D6#43, 0x26EF4D50D87#43, 0x314455A14ED#43,
   0x3A5A9E3E905#43, 0x249FCEFA3F8#43, 0x2EE676F02D9#43, 0x3948D2A4C8A#43] := by decide

/-- The packed words of rounds 32 to 47 agree with the rules R102 to R117. -/
theorem test_packed_table_32 : ((List.range' 32 16).map fun r => packEntry (RT r)) =
  [0x4A4FFFA3942#43, 0x50B8771F681#43, 0x5706D9D6122#43, 0x5D7FDE5380C#43,
   0x424A4BEEA44#43, 0x48B4BDECFA9#43, 0x4F0F6BB4B60#43, 0x557BEBFBC70#43,
   0x5A4289B7EC6#43, 0x40BEAA127FA#43, 0x470D4EF3085#43, 0x4D704881D05#43,
   0x524D9D4D039#43, 0x58BE6DB99E5#43, 0x5F01FA27CF8#43, 0x457C4AC5665#43] := by decide

/-- The packed words of rounds 48 to 63 agree with the rules R118 to R133. -/
theorem test_packed_table_48 : ((List.range' 48 16).map fun r => packEntry (RT r)) =
  [0x606F4292244#43, 0x6EA432AFF97#43, 0x7CFAB9423A7#43, 0x6B5FC93A039#43,
   0x786655B59C3#43, 0x66A8F0CCC92#43, 0x74FFFEFF47D#43, 0x63585845DD1#43,
   0x7066FA87E4F#43, 0x7EAFE2CE6E0#43, 0x6CFA3014314#43, 0x7B54E0811A1#43,
   0x686F7537E82#43, 0x76ABD3AF235#43, 0x64F2AD7D2BB#43, 0x735EB86D391#43] := by decide

/-- The new `b` of rounds 0 to 15, as the table lists them. -/
def abcB0 : List Word :=
  [0xD6D117B4#32, 0x344A8432#32, 0x2F6FBD72#32, 0x7AD956F2#32,
   0xC73741EF#32, 0x8BAC3051#32, 0x207DC67B#32, 0x928D99F6#32,
   0x854B3712#32, 0x74E2F284#32, 0x3020401C#32, 0x5ED49596#32,
   0xDDA9B9A6#32, 0xA1051895#32, 0xE396856B#32, 0x72AFF2E0#32]

/-- The new `b` of rounds 16 to 31, as the table lists them. -/
def abcB16 : List Word :=
  [0x3E9E9126#32, 0x4A1D804E#32, 0xE25E1652#32, 0xB5B204E4#32,
   0x59A8FFDA#32, 0x6D002F1E#32, 0xABFC7920#32, 0x47092C07#32,
   0xB7F268CF#32, 0x09388EFF#32, 0xFE1623B1#32, 0x786ACB8F#32,
   0x790A77FB#32, 0x9F47E4F8#32, 0xA62884AA#32, 0x726342D3#32]

/-- The new `b` of rounds 32 to 47, as the table lists them. -/
def abcB32 : List Word :=
  [0xB3707EBF#32, 0x60127B2E#32, 0x8D212FF5#32, 0x3B0875C7#32,
   0x21B117B9#32, 0x6E7429D5#32, 0x3575227E#32, 0x5A2F5EA5#32,
   0x11DE1779#32, 0xFADCAA38#32, 0x31C465CA#32, 0x4C6124F4#32,
   0x7F2E507B#32, 0x99D9679D#32, 0x8FAE6399#32, 0x7BEB9700#32]

/-- The new `b` of rounds 48 to 63, as the table lists them. -/
def abcB48 : List Word :=
  [0x7B201DF8#32, 0xF4E8E96E#32, 0xB298CEFD#32, 0x8BF025C4#32,
   0x06CC5E8A#32, 0x5B0D97AA#32, 0x7D632DD0#32, 0x3BFA2C27#32,
   0x7F81CC35#32, 0x094454AB#32, 0x4F9DBE3F#32, 0x7327D604#32,
   0x310ADE8F#32, 0x624D8CB2#32, 0xE484B9D8#32, 0xC08226B3#32]

/-- The registers of the chain: `b` before round `n` is entry `n + 3`, and `a`, `d`, `c` are the older
entries (R145: every register but `b` only moves). -/
def abcChain : List Word :=
  [0x67452301#32, 0x10325476#32, 0x98BADCFE#32, 0xEFCDAB89#32] ++ abcB0 ++ abcB16 ++ abcB32 ++ abcB48

/-- The working registers before round `n`. -/
def abcBefore (n : Nat) : Working :=
  ⟨abcChain.getD n 0, abcChain.getD (n + 3) 0, abcChain.getD (n + 2) 0, abcChain.getD (n + 1) 0⟩

/-- Each of these rounds, from the registers the spec lists before it, gives those it lists after. -/
def roundsAgree (n : Nat) : List Instr → Bool
  | [] => true
  | i :: is =>
    decide (after (exec i { counting .compP1 (BitVec.ofNat 7 n) with w := abcBefore n, B := abcBlock })
      (fun t => (t.w, t.rc)) = some (abcBefore (n + 1), BitVec.ofNat 7 (n + 1))) && roundsAgree (n + 1) is

/-- Rounds 0 to 15 of the block of "abc", one step each (95_test_vectors.md section 3.2). -/
theorem test_rounds_0 : roundsAgree 0
  [.rnd00, .rnd01, .rnd02, .rnd03, .rnd04, .rnd05, .rnd06, .rnd07,
   .rnd08, .rnd09, .rnd10, .rnd11, .rnd12, .rnd13, .rnd14, .rnd15] = true := by decide

/-- Rounds 16 to 31 of the block of "abc", one step each (95_test_vectors.md section 3.2). -/
theorem test_rounds_16 : roundsAgree 16
  [.rnd16, .rnd17, .rnd18, .rnd19, .rnd20, .rnd21, .rnd22, .rnd23,
   .rnd24, .rnd25, .rnd26, .rnd27, .rnd28, .rnd29, .rnd30, .rnd31] = true := by decide

/-- Rounds 32 to 47 of the block of "abc", one step each (95_test_vectors.md section 3.2). -/
theorem test_rounds_32 : roundsAgree 32
  [.rnd32, .rnd33, .rnd34, .rnd35, .rnd36, .rnd37, .rnd38, .rnd39,
   .rnd40, .rnd41, .rnd42, .rnd43, .rnd44, .rnd45, .rnd46, .rnd47] = true := by decide

/-- Rounds 48 to 63 of the block of "abc", one step each (95_test_vectors.md section 3.2). -/
theorem test_rounds_48 : roundsAgree 48
  [.rnd48, .rnd49, .rnd50, .rnd51, .rnd52, .rnd53, .rnd54, .rnd55,
   .rnd56, .rnd57, .rnd58, .rnd59, .rnd60, .rnd61, .rnd62, .rnd63] = true := by decide

/-- A round is refused in a state that does not select it (R64). -/
theorem test_round_not_selected :
    exec .rnd05 (counting .compD 6#7) = .refused .microStepNotSelected ∧
    exec .rnd05 (counting .absorb 5#7) = .refused .microStepNotSelected := ⟨rfl, rfl⟩

/-- `ACC` of the empty message (section 3.1), and its branch at the boundary 55 / 56 (R160). -/
theorem test_acc :
    after (exec .acc { counting .compP1 64#7 with
        H := IV, w := ⟨0x7246FAD3#32, 0x14E45506#32, 0xFF4EA3EB#32, 0x6E10A476#32⟩ })
      (fun t => (t.H, t.rc, t.ph)) = some (emptyDigest, 0#7, .done) ∧
    [55#61, 56#61].map (fun len => after (exec .acc { counting .compP1 64#7 with len := len }) State.ph) =
      [some .done, some .pad2] := by decide

/-- The branch of `ACC` from the other two phases (R160). -/
theorem test_acc_other_phases :
    after (exec .acc (counting .compD 64#7)) State.ph = some .absorb ∧
    after (exec .acc { counting .compP2 64#7 with len := 63#61 }) State.ph = some .done := by decide

/-! ## The formatters (section 4.3) -/

/-- `FMT1` over stale bytes, with `LEN = 64` (a) and `LEN = 55` (d). -/
theorem test_fmt1 :
    after (exec .fmt1 { withLen .pad1 64#61 with B := [(0, 0x61#8), (30, 0x61#8), (63, 0x61#8)] })
      (fun t => (t.B, t.ph, t.rc)) = some ([(0, 0x80#8), (57, 0x02#8)], .compP1, 0#7) ∧
    after (exec .fmt1 { withLen .pad1 55#61 with B := [(54, 0x61#8), (55, 0x61#8)] }) State.B =
      some [(54, 0x61#8), (55, 0x80#8), (56, 0xB8#8), (57, 0x01#8)] := by decide

/-- `FMT1` with `LEN = 56`: no footer (b). -/
theorem test_fmt1_without_footer :
    after (exec .fmt1 { withLen .pad1 56#61 with B := [(55, 0x61#8), (56, 0x61#8), (63, 0x61#8)] }) State.B =
      some [(55, 0x61#8), (56, 0x80#8)] := by decide

/-- `FMT2` with `LEN = 56` (c). -/
theorem test_fmt2 :
    after (exec .fmt2 { withLen .pad2 56#61 with
        B := [(0, 0x61#8), (56, 0x80#8)]
        H := ⟨0x3BF7335F#32, 0x122CDB68#32, 0xB14E7896#32, 0xF4455E95#32⟩ })
      (fun t => (t.B, t.w, t.ph)) = some ([(56, 0xC0#8), (57, 0x01#8)],
        ⟨0x3BF7335F#32, 0x122CDB68#32, 0xB14E7896#32, 0xF4455E95#32⟩, .compP2) := by decide

/-! ## The commands -/

/-- `INIT` (R155), in `IDLE` and over an unfinished message. -/
theorem test_init :
    after (exec .init (inPhase .idle)) (fun t => (t.H, t.len, t.ph)) = some (IV, 0#61, .absorb) ∧
    after (exec .init { withLen .absorb 3#61 with B := [(0, 0x78#8)] }) (fun t => (t.len, t.B)) =
      some (0#61, [(0, 0x78#8)]) := by decide

/-- `DATA` (R156): byte 0, and byte 63, which starts the compression. -/
theorem test_data :
    after (exec (.data 0x61#8) (withLen .absorb 64#61)) (fun t => (t.B, t.len, t.ph)) =
      some ([(0, 0x61#8)], 65#61, .absorb) ∧
    after (exec (.data 0x61#8) { withLen .absorb 63#61 with H := IV }) (fun t => (t.B, t.len, t.ph, t.w)) =
      some ([(63, 0x61#8)], 64#61, .compD,
        ⟨0x67452301#32, 0xEFCDAB89#32, 0x98BADCFE#32, 0x10325476#32⟩) := by decide

/-- The faults of `DATA`: V3 and V15 of section 7.2, by their `STATUS` byte. -/
theorem test_data_faults :
    after (exec (.data 0x61#8) (inPhase .idle)) State.statusByte = some 0xA0#8 ∧
    after (exec (.data 0x00#8) (withLen .absorb 0x1FFFFFFFFFFFFFFF#61)) (fun t => (t.statusByte, t.len, t.B)) =
      some (0xB1#8, 0x1FFFFFFFFFFFFFFF#61, []) := by decide

/-- `FINAL` (R157), and V4. -/
theorem test_final :
    after (exec .final (withLen .absorb 3#61)) (fun t => (t.ph, t.len)) = some (.pad1, 3#61) ∧
    after (exec .final (inPhase .idle)) State.statusByte = some 0xA0#8 := by decide

/-- `STATUS` (section 7.4): after reset, in `DONE`, and on a faulted core. -/
theorem test_status :
    after (exec .status (inPhase .idle)) State.rsp = some [0x00#8] ∧
    after (exec .status (inPhase .done)) State.rsp = some [0x0F#8] ∧
    after (exec .status (faulted .absorb)) State.rsp = some [0xA1#8] := by decide

/-- `READ` of the empty message's digest (section 6). -/
theorem test_read :
    [0#4, 1#4, 3#4, 4#4, 15#4].map (fun idx =>
      after (exec (.read idx) { inPhase .done with H := emptyDigest }) State.rsp) =
      [some [0xD4#8], some [0x1D#8], some [0xD9#8], some [0x8F#8], some [0x7E#8]] := by decide

/-- `READ` outside `DONE` faults (V5, V6); a frozen core raises nothing new (section 7.3). -/
theorem test_read_faults :
    after (exec (.read 0#4) (inPhase .idle)) State.statusByte = some 0xA0#8 ∧
    after (exec (.read 0#4) (inPhase .absorb)) State.statusByte = some 0xA1#8 ∧
    after (exec (.read 0#4) (faulted .done)) State.statusByte = some 0xAF#8 := ⟨rfl, rfl, rfl⟩

/-- A frozen core ignores `INIT`, `DATA`, `FINAL` (R177). -/
theorem test_frozen :
    exec .init (faulted .idle) = .next (faulted .idle) ∧
    exec (.data 1#8) (faulted .absorb) = .next (faulted .absorb) ∧
    exec .final (faulted .absorb) = .next (faulted .absorb) := ⟨rfl, rfl, rfl⟩

/-! ## One step -/

/-- An accepted reserved word, in `IDLE` (V7), in `DONE` (V13) and on a frozen core. -/
theorem test_step_reserved_word :
    after (step (presenting .idle [0x000#10])) State.statusByte = some 0x90#8 ∧
    after (step (presenting .done [0x2FF#10])) State.statusByte = some 0x9F#8 ∧
    after (step { faulted .idle with host := present [0x000#10] }) State.statusByte = some 0xA0#8 := by
  decide

/-- A command that waits: the core takes its micro-step and the command stays (R154). -/
theorem test_step_command_waits :
    after (step (presenting .pad1 [0x003#10])) (fun t => (t.ph, t.host, t.rsp)) =
      some (.compP1, present [0x003#10], []) := by decide

/-- A reset event in a busy, and in an unreachable, sequencer state (R187, R188). -/
theorem test_step_reset :
    after (step { counting .compD 7#7 with host := [.reset], rsp := [0x0F#8] })
      (fun t => (t.statusByte, t.rc, t.ready, t.rsp, t.host)) = some (0x00#8, 0#7, true, [0x0F#8], []) ∧
    after (step { counting .idle 9#7 with host := [.reset] }) State.rc = some 0#7 := ⟨rfl, rfl⟩

/-- `withFetchWord`: the very next step runs the row's instruction, from reset. -/
theorem test_with_fetch_word :
    step (State.reset.withFetchWord 10 0x003) = exec .status State.reset ∧
    step (State.reset.withFetchWord 7 0x11) = exec .rnd17 (counting .compD 17#7) ∧
    step (State.reset.withFetchWord 8 0x40) = exec .acc (counting .compD 64#7) ∧
    step (State.reset.withFetchWord 3 3) = exec .fmt2 (inPhase .pad2) := ⟨rfl, rfl, rfl, rfl⟩

/-! ## Witnesses: for every statement with hypotheses, a state and operands that meet them together -/

/-- Every field of the invariant at once. -/
theorem inv_of {s : State} (h : (s.rc.toNat ≤ 64 ∧ (compressing s.ph = false → s.rc = 0#7)) ∧
    ((s.ecode = 0#3 ↔ s.err = false) ∧ s.ecode.toNat ≤ 3 ∧ (s.err = true → s.busy = false)) ∧
    ((s.ph = .compD → s.fill = 0#6) ∧ (s.ph = .pad2 ∨ s.ph = .compP2 → 56 ≤ s.fill.toNat)) ∧
    s.B.wf) : s.Inv :=
  ⟨h.1.1, h.1.2, h.2.1.1, h.2.1.2.1, h.2.1.2.2, h.2.2.1.1, h.2.2.1.2, h.2.2.2⟩

/-- Each clause of CommandWordsDecodeByTheDecoder, at the ends of its range. -/
theorem witness_CommandWordsDecodeByTheDecoder :
    (0x001#10).toNat = 0x001 ∧ (0x002#10).toNat = 0x002 ∧ (0x003#10).toNat = 0x003 ∧
    (∀ cmd ∈ ([0x100#10, 0x1FF#10] : List CommandWord), cmd.toNat / 256 = 0b01) ∧
    (∀ cmd ∈ ([0x200#10, 0x20F#10] : List CommandWord), cmd.toNat / 16 = 0b100000) ∧
    (∀ cmd ∈ ([0x000#10, 0x004#10, 0x0FF#10, 0x210#10, 0x3FF#10] : List CommandWord),
      cmd.toNat ≠ 0x001 ∧ cmd.toNat ≠ 0x002 ∧ cmd.toNat ≠ 0x003 ∧ cmd.toNat / 256 ≠ 0b01 ∧
      cmd.toNat / 16 ≠ 0b100000) := by decide

/-- Each clause of SequencerDecodesByTheTable, at the ends of its range of `RC`. -/
theorem witness_SequencerDecodesByTheTable :
    (0#7).toNat = 0 ∧ (63#7).toNat < 64 ∧ (64#7).toNat = 64 ∧ 65 ≤ (65#7).toNat ∧
    65 ≤ (127#7).toNat ∧
    ((1#7).toNat ≠ 0 ∧ ¬ (Phase.idle = .compD ∨ Phase.idle = .compP1 ∨ Phase.idle = .compP2)) := by decide

theorem witness_DecodeOfEncodeIsTheInstruction :
    Instr.wellFormed (.data 0xFF#8) = true ∧ Instr.wellFormed (.read 15#4) = true ∧
    Instr.wellFormed .acc = true := by decide

theorem witness_LegalWordsEncodeBack :
    decodeCommand 0x20F#10 = .instr (.read 15#4) ∧ decodeSequencer 6#3 64#7 = .instr .acc ∧
    decodeSequencer 3#3 0#7 = .instr .fmt2 := by decide

/-- The ends of the four ranges of the round index. -/
theorem witness_RoundTableFollowsTheFormulas :
    ∀ r ∈ [0, 15, 16, 31, 32, 47, 48, 63], r < 64 := by decide

theorem witness_RotateMovesEveryBit :
    (0 : Nat) < 32 ∧ (31 : Nat) < 32 ∧ 0 % 32 = 0 ∧ 64 % 32 = 0 ∧ 31 % 32 ≠ 0 ∧ 33 % 32 ≠ 0 := by decide

theorem witness_MixFunctionsActBitByBit : (0 : Nat) < 32 ∧ (31 : Nat) < 32 := by decide

theorem witness_WordsAndBytesAreLittleEndian : (0 : Nat) < 8 ∧ (7 : Nat) < 8 := by decide

theorem witness_BlockWordsAreLittleEndian : (0 : Nat) < 4 ∧ (3 : Nat) < 4 := by decide

/-- A ready core, sound in each phase and faulted. -/
theorem witness_InitStartsADigest :
    (∀ p ∈ [Phase.idle, .absorb, .done], (inPhase p).busy = false ∧ (inPhase p).err = false) ∧
    (faulted .absorb).busy = false ∧ (faulted .absorb).err = true := by decide

/-- Below the limit with `FILL` 0 and 63, out of `ABSORB`, at the limit, faulted. -/
theorem witness_DataAppendsAByte :
    (∀ len ∈ ([0#61, 63#61, 0x1FFFFFFFFFFFFFFE#61] : List (BitVec 61)),
      let s := withLen .absorb len
      s.err = false ∧ s.ph = .absorb ∧ s.len.toNat ≠ 2 ^ 61 - 1 ∧ s.B.wf) ∧
    ((withLen .absorb 63#61).fill.toNat = 63 ∧ HostEvent.reset ∉ (withLen .absorb 63#61).host) ∧
    (withLen .absorb 0#61).fill.toNat ≠ 63 ∧
    ((inPhase .idle).err = false ∧ (inPhase .idle).ph = .idle) ∧
    ((inPhase .done).err = false ∧ (inPhase .done).ph = .done) ∧
    (let s := withLen .absorb 0x1FFFFFFFFFFFFFFF#61
     s.err = false ∧ s.ph = .absorb ∧ s.len.toNat = 2 ^ 61 - 1) ∧
    ((faulted .absorb).err = true ∧ (faulted .absorb).busy = false) := by
  refine ⟨fun len h => ⟨rfl, rfl, ?_, .nil, by simp [withLen, State.reset]⟩, ⟨rfl, by decide⟩,
    by decide, ⟨rfl, rfl⟩, ⟨rfl, rfl⟩, ⟨rfl, rfl, ?_⟩,
    rfl, rfl⟩
  · simp only [List.mem_cons, List.not_mem_nil, or_false] at h
    rcases h with rfl | rfl | rfl <;> norm_num [withLen]
  · norm_num [withLen]

theorem witness_FinalEndsTheMessage :
    ((inPhase .absorb).err = false ∧ (inPhase .absorb).ph = .absorb ∧ (inPhase .absorb).rc = 0#7 ∧
      HostEvent.reset ∉ (inPhase .absorb).host) ∧
    ((inPhase .done).err = false ∧ (inPhase .done).ph = .done) ∧
    ((faulted .absorb).err = true ∧ (faulted .absorb).busy = false) := by decide

theorem witness_StatusAnswersTheStatusByte :
    (inPhase .done).busy = false ∧ (faulted .idle).busy = false := by decide

theorem witness_ReadAnswersADigestByte :
    ((inPhase .done).err = false ∧ (inPhase .done).ph = .done) ∧
    ((inPhase .idle).err = false ∧ (inPhase .idle).ph = .idle) ∧
    ((inPhase .absorb).err = false ∧ (inPhase .absorb).ph = .absorb) ∧
    ((faulted .done).err = true ∧ (faulted .done).busy = false) := by decide

theorem witness_PhaseViolationsFollowTheTable :
    (∀ p ∈ [Phase.idle, .absorb, .done],
      (inPhase p).busy = false ∧ (inPhase p).err = false ∧ (inPhase p).ecode = 0#3) ∧
    HostCommand .init ∧ HostCommand .final ∧ HostCommand .status ∧ HostCommand (.data 0xFF#8) ∧
    HostCommand (.read 15#4) := by
  refine ⟨by decide, ?_⟩
  simp [HostCommand]

theorem witness_LengthOverflowIsRefused :
    let s := withLen .absorb 0x1FFFFFFFFFFFFFFF#61
    let t := withLen .absorb 0x1FFFFFFFFFFFFFFE#61
    (s.err = false ∧ s.ph = .absorb ∧ s.len.toNat = 2 ^ 61 - 1) ∧
    (t.err = false ∧ t.ph = .absorb ∧ t.len.toNat ≠ 2 ^ 61 - 1) := by decide

theorem witness_FrozenCoreIgnoresCommands :
    let s : State := { faulted .done with host := present [0x210#10] }
    s.err = true ∧ s.busy = false ∧ s.host = .command 0x210#10 :: [] ∧ s.rc = 0#7 ∧
      decodeCommand 0x210#10 = .reserved := by decide

/-- The last clause: a step from a state of the invariant to a faulted one. -/
theorem witness_FrozenCoreIgnoresCommands_step :
    (presenting .idle [0x002#10]).Inv ∧ step (presenting .idle [0x002#10]) = .next (faulted .idle) ∧
      (faulted .idle).err = true := ⟨inv_of (by decide), rfl, rfl⟩

/-- A busy core with a command waiting; a ready one, faulted and sound, with a reserved word. -/
theorem witness_BusyCoreMakesCommandsWait :
    ((inPhase .compD).busy = true ∧ HostCommand .init) ∧
    (let s := presenting .pad1 [0x001#10]
     s.busy = true ∧ s.host = .command 0x001#10 :: [] ∧ (after (step s) State.host).isSome = true) ∧
    (let s : State := { faulted .idle with host := present [0x100#10] }
     s.busy = false ∧ s.rc = 0#7 ∧ s.host = .command 0x100#10 :: [] ∧ s.err = true ∧
       decodeCommand 0x100#10 = .instr (.data 0#8)) ∧
    (let s := presenting .absorb [0x0FF#10]
     s.busy = false ∧ s.rc = 0#7 ∧ s.host = .command 0x0FF#10 :: [] ∧ s.err = false ∧
       decodeCommand 0x0FF#10 = .reserved) :=
  ⟨⟨rfl, .inl rfl⟩, by decide, by decide, by decide⟩

theorem witness_FaultsLeaveOnlyTheRecord :
    step (presenting .idle [0x002#10]) = .next (faulted .idle) ∧
      (presenting .idle [0x002#10]).err = false ∧ (faulted .idle).err = true := ⟨rfl, rfl, rfl⟩

theorem witness_DatapathRaisesNothing :
    ¬ HostCommand .fmt2 ∧ ¬ HostCommand .rnd63 ∧ ¬ HostCommand .acc ∧
    exec .acc (counting .compD 64#7) = .next (inPhase .absorb) :=
  ⟨by simp [HostCommand], by simp [HostCommand], by simp [HostCommand], rfl⟩

/-- `FILL` 55, the last with a footer, and 56, the first without, with an address for each clause. -/
theorem witness_FirstPaddingBlockIsFormatted :
    (∀ len ∈ ([0#61, 55#61, 56#61, 63#61] : List (BitVec 61)),
      (withLen .pad1 len).ph = .pad1 ∧ (withLen .pad1 len).rc = 0#7) ∧
    54 < (55#61).toNat % 64 ∧ ((0#61).toNat % 64 < 55 ∧ 55 < 64 ∧ 55 < 56) ∧
    ((56#61).toNat % 64 < 63 ∧ 63 < 64 ∧ 56 ≤ (56#61).toNat % 64) ∧
    ((55#61).toNat % 64 ≤ 55 ∧ 7 < 8) := by
  refine ⟨fun len _ => ⟨rfl, rfl⟩, ?_⟩
  simp

theorem witness_SecondPaddingBlockIsFormatted :
    (let s := withLen .pad2 56#61
     s.ph = .pad2 ∧ s.rc = 0#7 ∧ 0 < 56 ∧ 55 < 56 ∧ 0 < 8 ∧ 7 < 8) ∧
    step { counting .compP1 64#7 with len := 56#61 } = .next (withLen .pad2 56#61) ∧
    (withLen .pad2 56#61).ph = .pad2 := ⟨by decide, rfl, rfl⟩

/-- For every round number and each compression phase there is a state that selects it: this serves the
eight statements over the 64 rounds, FirstFRoundsAreTheirRules to SecondIRoundsAreTheirRules. -/
theorem witness_RoundRule (r : Nat) (h : r < 64) : ∀ p ∈ [Phase.compD, .compP1, .compP2],
    let s := counting p (BitVec.ofNat 7 r)
    (s.ph = .compD ∨ s.ph = .compP1 ∨ s.ph = .compP2) ∧ s.rc.toNat = r := by
  intro p hp
  refine ⟨by simpa [counting] using hp, ?_⟩
  simp only [counting, BitVec.toNat_ofNat]
  omega

theorem witness_RoundsFollowTheGenericRule :
    (0 < 64 ∧ compressing (counting .compD 0#7).ph = true ∧ (counting .compD 0#7).rc.toNat = 0) ∧
    (63 < 64 ∧ compressing (counting .compP2 63#7).ph = true ∧
      (counting .compP2 63#7).rc.toNat = 63) := by decide

theorem witness_AccumulateAddsIntoTheDigest :
    (∀ p ∈ [Phase.compD, .compP1, .compP2],
      compressing (counting p 64#7).ph = true ∧ (counting p 64#7).rc = 64#7) ∧
    ({ counting .compP1 64#7 with len := 55#61 }).len.toNat % 64 ≤ 55 ∧
    56 ≤ ({ counting .compP1 64#7 with len := 56#61 }).len.toNat % 64 := by decide

theorem witness_MicroStepsHappenOnlyWhereSelected :
    ¬ HostCommand .rnd63 ∧ decodeSequencer (phaseCode .compP1) 63#7 = .instr .rnd63 ∧
    decodeSequencer (phaseCode .compP1) 64#7 ≠ .instr .rnd63 :=
  ⟨by simp [HostCommand], by decide, by decide⟩

/-- The four cases: a micro-step with waiting next, with a command waiting, with no event; a command. -/
theorem witness_DecodedInstructionRuns :
    (let s : State := { counting .compD 63#7 with host := [.wait] }
     s.noReset = true ∧ Instr.wellFormed .rnd63 = true ∧
       decodeSequencer (phaseCode s.ph) s.rc = .instr .rnd63 ∧ s.host = .wait :: []) ∧
    (∀ s ∈ [counting .pad1 0#7, presenting .pad1 [0x003#10]],
      s.noReset = true ∧ Instr.wellFormed .fmt1 = true ∧
       decodeSequencer (phaseCode s.ph) s.rc = .instr .fmt1 ∧ s.host.head? ≠ some .wait) ∧
    (let s := presenting .absorb [0x1FF#10]
     s.host = .command 0x1FF#10 :: [] ∧ Instr.wellFormed (.data 0xFF#8) = true ∧
       decodeSequencer (phaseCode s.ph) s.rc = .waits ∧
       decodeCommand 0x1FF#10 = .instr (.data 0xFF#8)) := by decide

theorem witness_ReservedWordRaisesIllegalCommand :
    ∀ cmd ∈ ([0x000#10, 0x004#10, 0x0FF#10, 0x210#10, 0x2FF#10, 0x300#10, 0x3FF#10] : List CommandWord),
      let s := presenting .done [cmd]
      s.err = false ∧ s.busy = false ∧ s.rc = 0#7 ∧ s.host = .command cmd :: [] ∧
      (cmd.toNat = 0 ∨ (0x004 ≤ cmd.toNat ∧ cmd.toNat ≤ 0x0FF) ∨
        (0x210 ≤ cmd.toNat ∧ cmd.toNat ≤ 0x2FF) ∨ (0x300 ≤ cmd.toNat ∧ cmd.toNat ≤ 0x3FF)) := by decide

theorem witness_ResetClearsTheControlState :
    ({ counting .compP2 64#7 with host := [.reset] } : State).host = .reset :: [] := by decide

theorem witness_IdleCoreKeepsItsState :
    ((inPhase .done).busy = false ∧ (inPhase .done).rc = 0#7 ∧ (inPhase .done).host = []) ∧
    (let s : State := { inPhase .absorb with host := [.wait] }
     s.busy = false ∧ s.rc = 0#7 ∧ s.host = .wait :: []) := by decide

theorem witness_UnreachableStatesAreRefused :
    ((counting .compD 65#7).noReset = true ∧
      step (counting .compD 65#7) = .refused .unreachableState) ∧ (counting .compD 64#7).Inv :=
  ⟨⟨rfl, rfl⟩, inv_of (by decide)⟩

theorem witness_ExactlyOneAgentIsEnabled :
    ((counting .compD 64#7).Inv ∧ (counting .compD 64#7).busy = true) ∧
    ((faulted .done).Inv ∧ (faulted .done).ready = true) :=
  ⟨⟨inv_of (by decide), by decide⟩, ⟨inv_of (by decide), by decide⟩⟩

/-- `ACC` at `FILL = 56`, the step into `PAD2`. -/
theorem witness_StepKeepsTheInvariant :
    State.Inv { counting .compP1 64#7 with len := 56#61 } ∧
    step { counting .compP1 64#7 with len := 56#61 } = .next (withLen .pad2 56#61) :=
  ⟨inv_of (by decide), rfl⟩

theorem witness_ReachableStatesAlwaysStep :
    (presenting .pad1 [0x000#10]).Inv ∧ (withLen .compP2 63#61).Inv :=
  ⟨inv_of (by decide), inv_of (by decide)⟩

/-- A step from each phase, `RC` on both sides of 64. -/
theorem witness_PhasesFollowTheTransitionTable : ∀ s ∈
    [presenting .idle [0x001#10], presenting .absorb [0x002#10],
     { withLen .absorb 63#61 with host := present [0x1FF#10] },
     { withLen .absorb 62#61 with host := present [0x100#10] }, inPhase .pad1, withLen .pad2 56#61,
     counting .compD 63#7, counting .compD 64#7, counting .compP1 64#7,
     { counting .compP1 64#7 with len := 56#61 }, { counting .compP2 64#7 with len := 56#61 },
     presenting .done [0x003#10]],
    s.Inv ∧ s.noReset = true ∧ (after (step s) State.ph).isSome = true := by
  intro s hs
  simp only [List.mem_cons, List.not_mem_nil, or_false] at hs
  rcases hs with rfl | rfl | rfl | rfl | rfl | rfl | rfl | rfl | rfl | rfl | rfl | rfl <;>
    exact ⟨inv_of (by decide), by decide, by decide⟩

theorem witness_LengthStaysThroughPadding :
    (let s := inPhase .pad1
     s.noReset = true ∧ s.busy = true ∧ (after (step s) State.len) = some 0#61) ∧
    (let s := presenting .done [0x003#10]
     s.noReset = true ∧ s.ph = .done ∧ (after (step s) State.ph) = some .done) := by decide

theorem witness_DigestIsStableInDone :
    let s := presenting .done [0x200#10]
    s.ph = .done ∧ s.noReset = true ∧ (after (step s) State.ph) = some .done := by decide

theorem witness_FaultRecordIsSticky :
    let s : State := { faulted .absorb with host := present [0x001#10] }
    s.Inv ∧ s.err = true ∧ s.noReset = true ∧ step s = .next (faulted .absorb) :=
  ⟨inv_of (by decide), rfl, rfl, rfl⟩

theorem witness_DigestStateIsWrittenOnlyByInitAndAcc :
    exec .final (inPhase .absorb) = .next (inPhase .pad1) ∧
    exec .acc (counting .compD 64#7) = .next (inPhase .absorb) := ⟨rfl, rfl⟩

theorem witness_CompressionComputesCompress :
    let s : State := { inPhase .compD with H := IV, w := ⟨IV.h0, IV.h1, IV.h2, IV.h3⟩, B := abcBlock }
    compressing s.ph = true ∧ s.rc = 0#7 ∧ s.w = ⟨s.H.h0, s.H.h1, s.H.h2, s.H.h3⟩ ∧
      HostEvent.reset ∉ s.host := by decide

theorem witness_BusyStretchesEnd :
    let s : State := { withLen .pad1 56#61 with host := present [0x003#10] }
    s.Inv ∧ s.busy = true ∧ HostEvent.reset ∉ s.host :=
  ⟨inv_of (by decide), by decide, by decide⟩

theorem witness_MessageScriptComputesTheDigest :
    let msg : List Byte := [0x61#8]
    let s : State := { inPhase .done with host := present (script msg ++ [0x200#10]), B := abcBlock }
    msg.length ≤ 2 ^ 61 - 1 ∧ s.busy = false ∧ s.rc = 0#7 ∧ s.err = false ∧ s.B.wf ∧
      s.host = present (script msg ++ [0x200#10]) := by decide

theorem witness_PaddingFillsWholeBlocks :
    let msg : List Byte := [0x61#8]
    msg.length ≤ 2 ^ 61 - 1 ∧ (msg.length + 1 + 54) % 64 = 56 ∧ 53 < padZeros msg.length ∧ 7 < 8 := by
  decide

theorem witness_SerializerIsABijection :
    (3 : Nat) < 4 ∧ ser IV = ser IV ∧ (List.replicate 16 0x61#8).length = 16 := by decide

/-- Two states in `IDLE` with other data registers; `INIT` takes them out of it. -/
theorem witness_LeftoversNeverReachThePort :
    let s := presenting .idle [0x001#10, 0x002#10]
    let t : State := { s with H := IV, w := ⟨1#32, 2#32, 3#32, 4#32⟩, B := abcBlock, len := 5#61 }
    s.ph = .idle ∧ s.B.wf ∧ t.B.wf ∧ SamePort s t ∧
      after (steps 1 s) State.ph = some .absorb ∧ Phase.absorb ≠ .idle :=
  ⟨rfl, by decide, by decide, ⟨rfl, rfl, rfl, rfl, rfl, rfl, rfl⟩, by decide, by decide⟩

theorem witness_AssembledLinesDecodeToTheirCommands :
    (255 ≤ 255 ∧ 15 ≤ 15 ∧ 0x3FF ≤ 0x3FF) ∧ (255 < 256 ∧ 15 < 16 ∧ 0x3FF < 0x400) := by decide

/-- Both sides of the limit, for a message and for `LEN`. -/
theorem witness_NoDigestBeyondTheLimit :
    2 ^ 61 ≤ (List.replicate (2 ^ 61) 0#8).length ∧ (List.replicate (2 ^ 61 - 1) 0#8).length < 2 ^ 61 ∧
    (let s := withLen .absorb 0x1FFFFFFFFFFFFFFF#61
     s.err = false ∧ s.ph = .absorb ∧ 2 ^ 61 - 1 < s.len.toNat + 1) := by
  refine ⟨?_, ?_, rfl, rfl, ?_⟩
  · rw [List.length_replicate]
  · rw [List.length_replicate]; norm_num
  · norm_num [withLen]

/-- Two states in `DONE` with other data registers and `INIT` next: after one step no value is drawn and the
phase is `ABSORB`, so both inner clauses apply. -/
theorem witness_DigestForgetsWhatCameBeforeInit :
    let s := presenting .done [0x001#10, 0x003#10]
    let t : State := { s with H := IV, w := ⟨1#32, 2#32, 3#32, 4#32⟩, B := abcBlock, len := 5#61 }
    (s.busy = false ∧ s.rc = 0#7 ∧ s.err = false ∧
      s.host = .command 0x001#10 :: present [0x003#10]) ∧
    s.B.wf ∧ t.B.wf ∧ SamePort s t ∧
    after (steps 1 s) (fun u => (u.ph, u.draws)) = some (.absorb, s.draws) :=
  ⟨by decide, by decide, by decide, ⟨rfl, rfl, rfl, rfl, rfl, rfl, rfl⟩, by decide⟩

end Sys2Proof.Tests
end

/-! # Scope: the arithmetic primitives and what an `INIT` forgets

The proofs of the statements about sections 2 and 3 of the spec: the primitives of the datapath as numbers
and bit by bit, the round table, and the two runs from an `INIT`. -/

namespace Sys2Proof.Machine

/-! ## `add32` -/

@[simp] theorem add32_toNat (x y : Word) : (add32 x y).toNat = (x.toNat + y.toNat) % 2 ^ 32 :=
  BitVec.toNat_add x y

@[simp] theorem add32x4_toNat (w x y z : Word) :
    (add32x4 w x y z).toNat = (w.toNat + x.toNat + y.toNat + z.toNat) % 2 ^ 32 :=
  BitVec.toNat_ofNat _ 32

theorem add32_comm (x y : Word) : add32 x y = add32 y x := BitVec.add_comm x y

theorem add32_assoc (x y z : Word) : add32 (add32 x y) z = add32 x (add32 y z) :=
  BitVec.add_assoc x y z

/-- Reducing once at the end or after every addition is the same (R8). -/
theorem add32x4_eq_add32 (w x y z : Word) : add32x4 w x y z = add32 w (add32 x (add32 y z)) := by
  apply BitVec.eq_of_toNat_eq
  simp only [add32x4_toNat, add32_toNat, Nat.add_mod_mod, Nat.add_assoc]

/-- Settles O9: `add32` is the addition of words, and the sum of four is the sum by twos. -/
theorem addWrapsSilently : Obligations.AddWrapsSilently := fun w x y z =>
  ⟨add32_toNat x y, add32x4_toNat w x y z, add32_comm x y, add32_assoc x y z,
    add32x4_eq_add32 w x y z, rfl, rfl, BitVec.add_zero x⟩

/-! ## `rotl32` -/

/-- `rotl32` is the rotation of the library: its case of an amount of 0 is no exception. -/
theorem rotl32_eq_rotateLeft (x : Word) (n : Nat) : rotl32 x n = x.rotateLeft n := by
  unfold rotl32
  dsimp only
  split
  · rename_i h
    rw [← BitVec.rotateLeft_mod_eq_rotateLeft, h]
    simp [BitVec.rotateLeft_def, BitVec.ushiftRight_eq_zero (le_refl 32)]
  · exact BitVec.rotateLeft_def.symm

theorem rotl32_of_mod_eq_zero (x : Word) {n : Nat} (h : n % 32 = 0) : rotl32 x n = x := by
  simp [rotl32, h]

/-- Bit `i` goes to place `(i + n) mod 32`, whether or not it passes the top. -/
theorem getLsbD_rotl32_add_mod (x : Word) (n : Nat) {i : Nat} (h : i < 32) :
    (rotl32 x n).getLsbD ((i + n) % 32) = x.getLsbD i := by
  rw [rotl32_eq_rotateLeft, BitVec.getLsbD_rotateLeft]
  by_cases hw : i + n % 32 < 32
  · have hp : (i + n) % 32 = i + n % 32 := by omega
    simp [hp, hw]
  · have hp : (i + n) % 32 = i + n % 32 - 32 := by omega
    have hlow : i + n % 32 - 32 < n % 32 := by omega
    have hback : 32 - n % 32 + (i + n % 32 - 32) = i := by omega
    simp [hp, hlow, hback]

/-- The two halves of a rotated word do not overlap, so the `or` that joins them is a sum. -/
theorem rotl32_toNat (x : Word) (n : Nat) : (rotl32 x n).toNat =
    (x.toNat * 2 ^ (n % 32) + x.toNat / 2 ^ (32 - n % 32)) % 2 ^ 32 := by
  set e := n % 32 with he
  have hpow : 2 ^ (32 - e) * 2 ^ e = 2 ^ 32 := by rw [← pow_add]; congr 1; omega
  have hlow : x.toNat / 2 ^ (32 - e) < 2 ^ e := by
    rw [Nat.div_lt_iff_lt_mul (by positivity), mul_comm, hpow]; exact x.isLt
  have hhigh : x.toNat * 2 ^ e % 2 ^ 32 = (x.toNat % 2 ^ (32 - e)) <<< e := by
    rw [← hpow, Nat.mul_mod_mul_right, Nat.shiftLeft_eq]
  have hsum : (rotl32 x n).toNat = x.toNat * 2 ^ e % 2 ^ 32 + x.toNat / 2 ^ (32 - e) := by
    rw [rotl32_eq_rotateLeft, BitVec.toNat_rotateLeft, ← he, Nat.shiftLeft_eq,
      Nat.shiftRight_eq_div_pow, hhigh, Nat.shiftLeft_add_eq_or_of_lt hlow]
  rw [← Nat.mod_add_mod, ← hsum, Nat.mod_eq_of_lt (rotl32 x n).isLt]

/-- Settles O10, from where the library's rotation puts each bit and from the two halves not overlapping. -/
theorem rotateMovesEveryBit : Obligations.RotateMovesEveryBit := fun x n =>
  ⟨fun _ hi => getLsbD_rotl32_add_mod x n hi, rotl32_of_mod_eq_zero x, fun _ => rotl32_toNat x n⟩

/-! ## The nonlinear functions, bit by bit (R11 to R14) -/

theorem getLsbD_mixF (b c d : Word) {i : Nat} (h : i < 32) :
    (mixF b c d).getLsbD i = if b.getLsbD i then c.getLsbD i else d.getLsbD i := by
  cases hb : b[i] <;> simp [mixF, hb, h]

theorem getLsbD_mixG (b c d : Word) {i : Nat} (h : i < 32) :
    (mixG b c d).getLsbD i = if d.getLsbD i then b.getLsbD i else c.getLsbD i := by
  cases hd : d[i] <;> simp [mixG, hd, h]

theorem getLsbD_mixH (b c d : Word) (i : Nat) :
    (mixH b c d).getLsbD i = ((b.getLsbD i != c.getLsbD i) != d.getLsbD i) := by
  simp [mixH]

theorem getLsbD_mixI (b c d : Word) {i : Nat} (h : i < 32) : (mixI b c d).getLsbD i =
    if b.getLsbD i ∨ d.getLsbD i = false then !c.getLsbD i else c.getLsbD i := by
  cases hb : b[i] <;> cases hd : d[i] <;> simp [mixI, hb, hd, h]

/-- Settles O11: one lemma a function. -/
theorem mixFunctionsActBitByBit : Obligations.MixFunctionsActBitByBit := fun b c d i h =>
  ⟨getLsbD_mixF b c d h, getLsbD_mixG b c d h, getLsbD_mixH b c d i, getLsbD_mixI b c d h⟩

/-! ## The round table (R15, R16) -/

/-- The selector of the group of 16 rounds in which round `r` lies (R15). -/
def groupFn (r : Nat) : MixFn :=
  if r < 16 then .F else if r < 32 then .G else if r < 48 then .H else .I

theorem mixCode_groupFn {r : Nat} (h : r < 64) : (mixCode (groupFn r)).toNat = r / 16 := by
  unfold groupFn
  split_ifs <;> simp [mixCode] <;> omega

theorem mix_groupFn (r : Nat) (b c d : Word) : mix (groupFn r) b c d = nonlinear r b c d := by
  unfold groupFn nonlinear
  split_ifs <;> rfl

theorem nonlinear_F {r : Nat} (h : r < 16) (b c d : Word) : nonlinear r b c d = mixF b c d :=
  if_pos h

theorem nonlinear_G {r : Nat} (h : 16 ≤ r) (h' : r < 32) (b c d : Word) :
    nonlinear r b c d = mixG b c d := by
  rw [nonlinear, if_neg (by omega), if_pos h']

theorem nonlinear_H {r : Nat} (h : 32 ≤ r) (h' : r < 48) (b c d : Word) :
    nonlinear r b c d = mixH b c d := by
  rw [nonlinear, if_neg (by omega), if_neg (by omega), if_pos h']

theorem nonlinear_I {r : Nat} (h : 48 ≤ r) (b c d : Word) : nonlinear r b c d = mixI b c d := by
  rw [nonlinear, if_neg (by omega), if_neg (by omega), if_neg (by omega)]

/-- The 64 entries against the formulas: the selector, the word index, the bounds of the rotate amount. -/
theorem RT_fields : ∀ r < 64, (RT r).fn = groupFn r ∧ (RT r).g.toNat = wordIndex r ∧
    4 ≤ (RT r).s.toNat ∧ (RT r).s.toNat ≤ 23 := by decide

/-- Settles O8: the 64 entries agree with `groupFn` and `wordIndex`, which are the formulas. -/
theorem roundTableFollowsTheFormulas : Obligations.RoundTableFollowsTheFormulas := by
  intro r hr
  obtain ⟨hfn, hg, hlow, hhigh⟩ := RT_fields r hr
  rw [hfn]
  exact ⟨mixCode_groupFn hr, fun b c d => ⟨mix_groupFn r b c d, fun h => nonlinear_F h b c d,
    fun h h' => nonlinear_G h h' b c d, fun h h' => nonlinear_H h h' b c d,
    fun h => nonlinear_I h b c d⟩, hg, hlow, hhigh⟩

/-! ## Words and bytes (R17) -/

theorem byteOf_toNat {k : Nat} (v : BitVec k) (n : Nat) :
    (byteOf v n).toNat = v.toNat / 2 ^ (8 * n) % 256 := by
  simp [byteOf, BitVec.extractLsb'_toNat, Nat.shiftRight_eq_div_pow]

/-- Appending a byte below a bit vector shifts the upper part by 8 bits. -/
theorem toNat_append_byte {k : Nat} (v : BitVec k) (b : Byte) :
    (v ++ b).toNat = v.toNat * 2 ^ 8 + b.toNat := by
  rw [BitVec.toNat_append, ← Nat.shiftLeft_add_eq_or_of_lt b.isLt, Nat.shiftLeft_eq]

theorem le32_toNat (b0 b1 b2 b3 : Byte) : (le32 b0 b1 b2 b3).toNat =
    b0.toNat + 2 ^ 8 * b1.toNat + 2 ^ 16 * b2.toNat + 2 ^ 24 * b3.toNat := by
  unfold le32
  rw [toNat_append_byte, toNat_append_byte, toNat_append_byte]
  ring

theorem bytes32_le32 (b0 b1 b2 b3 : Byte) : bytes32 (le32 b0 b1 b2 b3) = [b0, b1, b2, b3] := by
  have h0 := b0.isLt
  have h1 := b1.isLt
  have h2 := b2.isLt
  have h3 := b3.isLt
  simp only [bytes32, List.cons.injEq, and_true]
  refine ⟨?_, ?_, ?_, ?_⟩ <;> apply BitVec.eq_of_toNat_eq <;> rw [byteOf_toNat, le32_toNat] <;> omega

theorem le32_byteOf (v : Word) : le32 (byteOf v 0) (byteOf v 1) (byteOf v 2) (byteOf v 3) = v := by
  apply BitVec.eq_of_toNat_eq
  have hv := v.isLt
  simp only [le32_toNat, byteOf_toNat]
  omega

/-- Byte `n` as a number cut down to 8 bits. -/
theorem byteOf_eq_ofNat {k : Nat} (v : BitVec k) (n : Nat) :
    byteOf v n = BitVec.ofNat 8 (v.toNat / 2 ^ (8 * n)) :=
  BitVec.eq_of_toNat_eq (byteOf_toNat v n)

theorem bytes32_eq_ofNat (v : Word) : bytes32 v = [BitVec.ofNat 8 v.toNat,
    BitVec.ofNat 8 (v.toNat / 2 ^ 8), BitVec.ofNat 8 (v.toNat / 2 ^ 16),
    BitVec.ofNat 8 (v.toNat / 2 ^ 24)] := by
  simp [bytes32, byteOf_eq_ofNat]

@[simp] theorem bytes64_length (v : BitVec 64) : (bytes64 v).length = 8 := rfl

theorem bytes64_getD (v : BitVec 64) {n : Nat} (h : n < 8) (d : Byte) :
    (bytes64 v).getD n d = byteOf v n := by
  interval_cases n <;> rfl

/-- Settles O12, from the value of `le32` and of a byte as numbers. -/
theorem wordsAndBytesAreLittleEndian : Obligations.WordsAndBytesAreLittleEndian :=
  ⟨fun b0 b1 b2 b3 => ⟨le32_toNat b0 b1 b2 b3, bytes32_le32 b0 b1 b2 b3⟩,
    fun v => ⟨le32_byteOf v, bytes32_eq_ofNat v⟩,
    fun v => ⟨bytes64_length v, fun n hn => by rw [bytes64_getD v hn, byteOf_toNat]⟩⟩

end Sys2Proof.Machine

/-! ## What a step does, in the forward direction

`step_next` says what a step can have done; these say what it does where the case is known. -/

namespace Sys2Proof.Machine

theorem noReset_of_ne_reset {s : State} (h : ∀ rest, s.host ≠ .reset :: rest) : s.noReset = true := by
  unfold State.noReset
  split
  · exact absurd ‹_› (h _)
  · rfl

theorem step_of_reset {s : State} {rest : List HostEvent} (h : s.host = .reset :: rest) :
    step s = .next (State.resetEvent { s with host := rest }) := by
  rw [step, fetch_of_reset h]

theorem step_of_instr {s : State} {i : Instr} (hq : s.noReset = true)
    (hd : decodeSequencer (phaseCode s.ph) s.rc = .instr i) : step s = exec i s.hostWaits := by
  rw [step, fetch_of_noReset hq, fetchSequenced_of_instr hd]

theorem step_of_command {s : State} {cmd : CommandWord} {rest : List HostEvent} {i : Instr}
    (hd : decodeSequencer (phaseCode s.ph) s.rc = .waits) (hc : s.host = .command cmd :: rest)
    (hi : decodeCommand cmd = .instr i) : step s = exec i { s with host := rest } := by
  rw [step, fetch_of_noReset (noReset_of_command hc), fetchSequenced_of_waits hd,
    fetchCommand_of_instr hc hi]

theorem step_of_reserved {s : State} {cmd : CommandWord} {rest : List HostEvent}
    (hd : decodeSequencer (phaseCode s.ph) s.rc = .waits) (hc : s.host = .command cmd :: rest)
    (hi : decodeCommand cmd = .reserved) :
    step s = .next (State.illegalCommand { s with host := rest }) := by
  rw [step, fetch_of_noReset (noReset_of_command hc), fetchSequenced_of_waits hd,
    fetchCommand_of_reserved hc hi]

theorem step_of_no_command {s : State} (hq : s.noReset = true)
    (hd : decodeSequencer (phaseCode s.ph) s.rc = .waits)
    (hc : ∀ cmd rest, s.host ≠ .command cmd :: rest) : step s = .next s.hostWaits := by
  rw [step, fetch_of_noReset hq, fetchSequenced_of_waits hd, fetchCommand_of_no_command hc]

/-- `INIT` on a ready core that is not frozen (R155). -/
theorem step_init {s : State} {rest : List HostEvent} (hb : s.busy = false) (hr : s.rc = 0#7)
    (he : s.err = false) (hh : s.host = .command 0x001#10 :: rest) :
    step s = .next { s with host := rest, H := IV, len := 0, rc := 0, ph := .absorb } := by
  have hd : decodeSequencer (phaseCode s.ph) s.rc = .waits :=
    (decodeSequencer_waits_iff _ _).mpr ⟨hb, hr⟩
  rw [step_of_command hd hh rfl, exec_init, command_of_ready (s := { s with host := rest }) hb]
  simp [he]

/-- The first of several steps. -/
theorem steps_succ_next {n : Nat} {s u : State} (h : steps (n + 1) s = .next u) :
    ∃ s', step s = .next s' ∧ steps n s' = .next u := by
  cases hs : step s with
  | next s' => exact ⟨s', rfl, (steps_succ_of_next hs n).symm.trans h⟩
  | fault r => cases r
  | refused r => simp [steps, hs] at h

/-! ## Two runs that agree on what can still be seen (R18, R38)

What the port will show depends on the sequencer, the fault record and the host's events; outside `IDLE` on
`H` and `LEN`; during a compression on the working registers; and on the bytes of `B` that the message has
filled. `Agree` is that relation, and every step keeps it. A free value is a function of the count of draws,
so it is the same in both runs; `Agree` carries the past responses for that reason, and the statement drops
what it says of them after a draw (log entry 6). -/

/-- How many bytes of `B`, from address 0 on, can still reach the digest: the message bytes of the block
while it fills, the whole block during a compression; `FMT2` rewrites the buffer, so none in `PAD2`. -/
def State.liveBytes (s : State) : Nat :=
  match s.ph with
  | .absorb | .pad1 => s.fill.toNat
  | .compD | .compP1 | .compP2 => bufferBytes
  | .idle | .pad2 | .done => 0

/-- Two states that agree on everything that can still reach the port. -/
structure Agree (s t : State) : Prop where
  port : SamePort s t
  wf_left : s.B.wf
  wf_right : t.B.wf
  digest : s.ph ≠ .idle → t.H = s.H ∧ t.len = s.len
  working : compressing s.ph = true → t.w = s.w
  bytes : ∀ a < s.liveBytes, t.B.read a = s.B.read a

theorem liveBytes_filling {s : State} (h : s.ph = .absorb ∨ s.ph = .pad1) :
    s.liveBytes = s.fill.toNat := by
  rcases h with h | h <;> simp [State.liveBytes, h]

theorem liveBytes_compressing {s : State} (h : compressing s.ph = true) : s.liveBytes = bufferBytes := by
  rcases (compressing_iff _).mp h with h | h | h <;> simp [State.liveBytes, h]

theorem liveBytes_le (s : State) : s.liveBytes ≤ bufferBytes := by
  have hf : s.fill.toNat < bufferBytes := s.fill.isLt
  unfold State.liveBytes
  split <;> omega

/-- An accepted byte is the only one to come alive, also the last of a block. -/
theorem liveBytes_acceptByte {s : State} (h : s.ph = .absorb) (byte : Byte) :
    (s.acceptByte byte).liveBytes = s.fill.toNat + 1 := by
  by_cases hf : s.fill = 63#6
  · have hc : compressing (s.acceptByte byte).ph = true := by simp [acceptByte_ph, hf, compressing]
    simp [liveBytes_compressing hc, hf, bufferBytes]
  · have hp : (s.acceptByte byte).ph = .absorb := by simp [acceptByte_ph, hf, h]
    have hn : s.fill.toNat ≠ 63 := fun e => hf (BitVec.eq_of_toNat_eq e)
    rw [liveBytes_filling (.inl hp)]
    rw [fill_toNat] at hn ⊢
    rw [fill_toNat, acceptByte_len, BitVec.toNat_add]
    simp only [BitVec.toNat_ofNat, BitVec.ofNat_eq_ofNat]
    omega

/-- A branch of `ACC` never leads to a compression. -/
theorem compressing_nextPhase {p : Phase} (h : compressing p = true) (fill : BitVec 6) :
    compressing (nextPhase p fill) = false := by
  rcases (compressing_iff _).mp h with rfl | rfl | rfl
  · rfl
  · unfold nextPhase; dsimp only; split <;> rfl
  · rfl

namespace Agree

variable {s t : State}

theorem busy_eq (h : Agree s t) : t.busy = s.busy := congrArg busyPhase h.port.ph.symm

theorem noReset_eq (h : Agree s t) : t.noReset = s.noReset := by
  simp only [State.noReset, h.port.host]

theorem decode_eq (h : Agree s t) :
    decodeSequencer (phaseCode t.ph) t.rc = decodeSequencer (phaseCode s.ph) s.rc := by
  rw [h.port.ph, h.port.rc]

/-! ### The shared operations -/

theorem withHost (h : Agree s t) (rest : List HostEvent) :
    Agree { s with host := rest } { t with host := rest } :=
  { h with port := { h.port with host := rfl } }

theorem hostWaits (h : Agree s t) : Agree s.hostWaits t.hostWaits := by
  unfold State.hostWaits
  rw [← h.port.host]
  split
  · exact h.withHost _
  · exact h

theorem respond (h : Agree s t) (b : Byte) : Agree (s.respond b) (t.respond b) :=
  { h with port := { h.port with rsp := congrArg (· ++ [b]) h.port.rsp } }

theorem respondFree (h : Agree s t) : Agree s.respondFree t.respondFree :=
  { h with port := { h.port with
      rsp := by rw [respondFree_rsp, respondFree_rsp, h.port.rsp, h.port.draws]
      draws := congrArg (· + 1) h.port.draws } }

theorem raise (h : Agree s t) (c : Cause) : Agree (s.raise c) (t.raise c) :=
  { h with port := { h.port with err := rfl, ecode := rfl } }

theorem illegalCommand (h : Agree s t) : Agree s.illegalCommand t.illegalCommand := by
  cases he : s.err with
  | true => rwa [illegalCommand_of_err he, illegalCommand_of_err (h.port.err ▸ he)]
  | false =>
    rw [illegalCommand_of_not_err he, illegalCommand_of_not_err (h.port.err ▸ he)]
    exact h.raise _

theorem statusByte_eq (h : Agree s t) : t.statusByte = s.statusByte := by
  simp only [State.statusByte, State.dv, h.port.err, h.port.ecode, h.port.ph]

/-! ### What starts an agreement: `INIT` and the reset event -/

/-- After `INIT` no byte of `B` is alive, and `H` and `LEN` are constants (R155). -/
theorem of_init (h : SamePort s t) (hs : s.B.wf) (ht : t.B.wf) :
    Agree { s with H := IV, len := 0, rc := 0, ph := .absorb }
      { t with H := IV, len := 0, rc := 0, ph := .absorb } where
  port := { h with ph := rfl, rc := rfl }
  wf_left := hs
  wf_right := ht
  digest _ := ⟨rfl, rfl⟩
  working hc := by cases hc
  bytes a ha := absurd ha (Nat.not_lt_zero a)

/-- In `IDLE` nothing of the data registers is alive (R188). -/
theorem of_idle (h : SamePort s t) (hs : s.B.wf) (ht : t.B.wf) (hp : s.ph = .idle) : Agree s t where
  port := h
  wf_left := hs
  wf_right := ht
  digest hi := absurd hp hi
  working hc := by rw [hp] at hc; cases hc
  bytes a ha := by simp [State.liveBytes, hp] at ha

theorem resetEvent (h : Agree s t) : Agree s.resetEvent t.resetEvent :=
  of_idle
    { h.port with
      ph := rfl
      rc := rfl
      err := rfl
      ecode := rfl
      draws := congrArg (· + 1) h.port.draws }
    (wf_ofFn _) (wf_ofFn _) rfl

/-! ### The commands and micro-steps that move data -/

theorem acceptByte (h : Agree s t) (hp : s.ph = .absorb) (byte : Byte) :
    Agree (s.acceptByte byte) (t.acceptByte byte) := by
  obtain ⟨hH, hlen⟩ := h.digest (by simp [hp])
  have hfill : t.fill = s.fill := congrArg (BitVec.extractLsb' 0 6) hlen
  have hlt : s.fill.toNat < bufferBytes := s.fill.isLt
  refine
    { port :=
        { ph := by simp only [acceptByte_ph, hfill, h.port.ph]
          rc := by simp only [acceptByte_rc, hfill, h.port.rc]
          err := by simpa using h.port.err
          ecode := by simpa using h.port.ecode
          host := by simpa using h.port.host
          rsp := by simpa using h.port.rsp
          draws := by simpa using h.port.draws }
      wf_left := by simpa using wf_write byte h.wf_left hlt
      wf_right := by simpa [hfill] using wf_write byte h.wf_right hlt
      digest := fun _ => by simp [hH, hlen]
      working := fun hc => ?_
      bytes := fun a ha => ?_ }
  · have h63 : s.fill = 63#6 := by
      by_contra hn
      simp [acceptByte_ph, hn, hp, compressing] at hc
    simp [acceptByte_w, hfill, h63, hH]
  · rw [liveBytes_acceptByte hp] at ha
    rw [acceptByte_B, acceptByte_B, hfill, read_write h.wf_right, read_write h.wf_left]
    split
    · rfl
    · exact h.bytes a (by rw [liveBytes_filling (.inl hp)]; omega)

/-- `FINAL` (R157): the message bytes of the last block stay alive. -/
theorem final (h : Agree s t) (hp : s.ph = .absorb) :
    Agree { s with ph := .pad1 } { t with ph := .pad1 } :=
  { port := { h.port with ph := rfl }
    wf_left := h.wf_left
    wf_right := h.wf_right
    digest := fun _ => h.digest (by simp [hp])
    working := fun hc => by cases hc
    bytes := fun a ha => h.bytes a (by rwa [liveBytes_filling (.inl hp)]) }

/-- `FMT1` reads no byte of `B` beyond the message (R138). -/
theorem fmt1Byte_eq (h : Agree s t) (hp : s.ph = .pad1) : fmt1Byte t = fmt1Byte s := by
  obtain ⟨-, hlen⟩ := h.digest (by simp [hp])
  have hread (j : Nat) (hj : j < s.fill.toNat) : t.B.read j = s.B.read j :=
    h.bytes j (by rwa [liveBytes_filling (.inr hp)])
  have hfill : t.fill = s.fill := congrArg (BitVec.extractLsb' 0 6) hlen
  funext j
  simp only [fmt1Byte, State.bitlen, hfill, hlen]
  exact ite_congr rfl (fun _ => rfl) fun _ => ite_congr rfl (hread j) fun _ => rfl

/-- `FMT2` reads only `LEN` (R139). -/
theorem fmt2Byte_eq (h : Agree s t) (hp : s.ph = .pad2) : fmt2Byte t = fmt2Byte s := by
  obtain ⟨-, hlen⟩ := h.digest (by simp [hp])
  funext j
  simp only [fmt2Byte, State.bitlen, hlen]

/-- A formatter loads the working registers from `H` and rewrites the buffer, so the two runs agree on
all of both (R144). -/
theorem format (h : Agree s t) (hp : s.ph ≠ .idle) (p : Phase) {f g : Nat → Byte} (hfg : g = f) :
    Agree { s.load with B := Memory.ofFn f, ph := p } { t.load with B := Memory.ofFn g, ph := p } := by
  obtain ⟨hH, hlen⟩ := h.digest hp
  subst hfg
  exact
    { port := { h.port with ph := rfl, rc := rfl }
      wf_left := wf_ofFn _
      wf_right := wf_ofFn _
      digest := fun _ => ⟨hH, hlen⟩
      working := fun _ => by simp only [load_w, hH]
      bytes := fun _ _ => rfl }

theorem word_eq (h : Agree s t) (hc : compressing s.ph = true) (i : BitVec 4) :
    t.B.word i = s.B.word i := by
  have hread (a : Nat) (ha : a < 64) : t.B.read a = s.B.read a :=
    h.bytes a (by rwa [liveBytes_compressing hc])
  have hi := i.isLt
  simp only [Memory.word]
  rw [hread _ (by omega), hread _ (by omega), hread _ (by omega), hread _ (by omega)]

/-- A round (R145). -/
theorem round (h : Agree s t) (hc : compressing s.ph = true) (e : RoundEntry) (rc : BitVec 7) :
    Agree { s with w := roundWords e (s.B.word e.g) s.w, rc := rc }
      { t with w := roundWords e (t.B.word e.g) t.w, rc := rc } :=
  { h with
    port := { h.port with rc := rfl }
    working := fun _ => by simp only [h.word_eq hc, h.working hc] }

/-- `ACC` (R146, R160): in `ABSORB` fewer bytes are alive than in the compression, elsewhere none. -/
theorem acc (h : Agree s t) (hc : compressing s.ph = true) :
    Agree { s with H := accumulate s.H s.w, rc := 0, ph := nextPhase s.ph s.fill }
      { t with H := accumulate t.H t.w, rc := 0, ph := nextPhase t.ph t.fill } := by
  obtain ⟨hH, hlen⟩ := h.digest (by rintro e; rw [e] at hc; cases hc)
  have hfill : t.fill = s.fill := congrArg (BitVec.extractLsb' 0 6) hlen
  exact
    { port := { h.port with ph := by simp only [h.port.ph, hfill], rc := rfl }
      wf_left := h.wf_left
      wf_right := h.wf_right
      digest := fun _ => ⟨by simp only [hH, h.working hc], hlen⟩
      working := fun hn => by simp [compressing_nextPhase hc] at hn
      bytes := fun a ha => h.bytes a (by
        rw [liveBytes_compressing hc]
        exact lt_of_lt_of_le ha (liveBytes_le _)) }

/-! ### The shapes of a meaning -/

/-- A command whose effects agree: both runs wait, or both take the effect (R154). -/
theorem command {f g : State → State} {u : State} (h : Agree s t)
    (hfg : s.busy = false → Agree (f s) (g t)) (hs : command s f = .next u) :
    ∃ v, command t g = .next v ∧ Agree u v := by
  rcases command_next hs with ⟨hb, rfl⟩ | ⟨hb, rfl⟩
  · exact ⟨t, command_of_busy (h.busy_eq.trans hb) g, h⟩
  · exact ⟨g t, command_of_ready (h.busy_eq.trans hb) g, hfg hb⟩

/-- A micro-step that is selected in both runs and agrees there. -/
theorem microStep {b c : Bool} {s' t' u : State} (hbc : b = true → c = true ∧ Agree s' t')
    (hs : microStep b s' = .next u) : ∃ v, microStep c t' = .next v ∧ Agree u v := by
  obtain ⟨hb, rfl⟩ := microStep_next hs
  exact ⟨t', microStep_selected (hbc hb).1 t', (hbc hb).2⟩

/-- A branch that both runs take alike. -/
theorem ite {p q : Prop} [Decidable p] [Decidable q] {s₁ s₂ t₁ t₂ : State} (hpq : p = q)
    (hpos : p → Agree s₁ t₁) (hneg : ¬ p → Agree s₂ t₂) :
    Agree (if p then s₁ else s₂) (if q then t₁ else t₂) := by
  subst hpq
  split
  · exact hpos ‹_›
  · exact hneg ‹_›

/-! ### Every step keeps the agreement -/

/-- Every instruction: what it reads of the data registers is alive where it reads it. -/
theorem exec {u : State} (h : Agree s t) (i : Instr) (hs : exec i s = .next u) :
    ∃ v, exec i t = .next v ∧ Agree u v := by
  have herr : (s.err = true) = (t.err = true) := by rw [h.port.err]
  have hph (p : Phase) : (s.ph ≠ p) = (t.ph ≠ p) := by rw [h.port.ph]
  have hsel (n : BitVec 7) (hb : (compressing s.ph && decide (s.rc = n)) = true) :
      (compressing t.ph && decide (t.rc = n)) = true ∧ compressing s.ph = true := by
    rw [← h.port.ph, ← h.port.rc]
    exact ⟨hb, (Bool.and_eq_true_iff.mp hb).1⟩
  rcases instr_cases i with rfl | rfl | rfl | ⟨byte, rfl⟩ | ⟨idx, rfl⟩ | rfl | rfl | ⟨n, hn, rfl⟩ | rfl
  · rw [exec_init] at hs ⊢
    refine h.command (fun _ => ?_) hs
    exact ite herr (fun _ => h) fun _ => of_init h.port h.wf_left h.wf_right
  · rw [exec_final] at hs ⊢
    refine h.command (fun _ => ?_) hs
    exact ite herr (fun _ => h) fun _ => ite (hph _) (fun _ => h.raise _) fun hp =>
      h.final (not_ne_iff.mp hp)
  · rw [exec_status] at hs ⊢
    refine h.command (fun _ => ?_) hs
    rw [h.statusByte_eq]
    exact h.respond _
  · rw [exec_data] at hs ⊢
    refine h.command (fun _ => ?_) hs
    refine ite herr (fun _ => h) fun _ => ite (hph _) (fun _ => h.raise _) fun hp => ?_
    have hp := not_ne_iff.mp hp
    have hlen := (h.digest (by simp [hp])).2
    exact ite (by rw [hlen]) (fun _ => h.raise _) fun _ => h.acceptByte hp byte
  · rw [exec_read] at hs ⊢
    refine h.command (fun _ => ?_) hs
    refine ite herr (fun _ => h.respondFree) fun _ =>
      ite (hph _) (fun _ => (h.raise _).respondFree) fun hp => ?_
    rw [(h.digest (by simp [not_ne_iff.mp hp])).1]
    exact h.respond _
  · rw [exec_fmt1] at hs ⊢
    refine microStep (fun hb => ?_) hs
    obtain ⟨hp, hr⟩ := of_decide_eq_true hb
    exact ⟨decide_eq_true ⟨h.port.ph ▸ hp, h.port.rc ▸ hr⟩,
      h.format (by simp [hp]) .compP1 (h.fmt1Byte_eq hp)⟩
  · rw [exec_fmt2] at hs ⊢
    refine microStep (fun hb => ?_) hs
    obtain ⟨hp, hr⟩ := of_decide_eq_true hb
    exact ⟨decide_eq_true ⟨h.port.ph ▸ hp, h.port.rc ▸ hr⟩,
      h.format (by simp [hp]) .compP2 (h.fmt2Byte_eq hp)⟩
  · rw [exec_roundInstr hn] at hs ⊢
    exact microStep (fun hb => (hsel _ hb).imp_right fun hc => h.round hc _ _) hs
  · rw [exec_acc] at hs ⊢
    exact microStep (fun hb => (hsel _ hb).imp_right h.acc) hs

/-- Every step: the events and the sequencer agree, so the same thing happens next in both runs. -/
theorem step {u : State} (h : Agree s t) (hs : step s = .next u) :
    ∃ v, step t = .next v ∧ Agree u v := by
  have hhost := h.port.host
  have hdec := h.decode_eq
  by_cases hr : ∃ rest, s.host = .reset :: rest
  · obtain ⟨rest, hr⟩ := hr
    obtain rfl := Host.Outcome.next.inj ((step_of_reset hr).symm.trans hs)
    exact ⟨_, step_of_reset (hhost ▸ hr), (h.withHost rest).resetEvent⟩
  have hq : s.noReset = true := noReset_of_ne_reset fun rest e => hr ⟨rest, e⟩
  have hqt : t.noReset = true := h.noReset_eq.trans hq
  cases hd : decodeSequencer (phaseCode s.ph) s.rc with
  | instr i =>
    rw [step_of_instr hq hd] at hs
    rw [step_of_instr hqt (hdec.trans hd)]
    exact h.hostWaits.exec i hs
  | reserved => simp [Machine.step, fetch_of_noReset hq, fetchSequenced, hd] at hs
  | unreachable => simp [Machine.step, fetch_of_noReset hq, fetchSequenced, hd] at hs
  | waits =>
    have hdt := hdec.trans hd
    rcases fetchCommand_cases s with ⟨cmd, rest, i, hc, hi, -⟩ | ⟨cmd, rest, hc, hi, -⟩ | ⟨hc, -⟩
    · rw [step_of_command hd hc hi] at hs
      rw [step_of_command hdt (hhost ▸ hc) hi]
      exact (h.withHost rest).exec i hs
    · obtain rfl := Host.Outcome.next.inj ((step_of_reserved hd hc hi).symm.trans hs)
      exact ⟨_, step_of_reserved hdt (hhost ▸ hc) hi, (h.withHost rest).illegalCommand⟩
    · obtain rfl := Host.Outcome.next.inj ((step_of_no_command hq hd hc).symm.trans hs)
      exact ⟨_, step_of_no_command hqt hdt (hhost ▸ hc), h.hostWaits⟩

theorem steps {n : Nat} {u : State} (h : Agree s t) (hs : steps n s = .next u) :
    ∃ v, steps n t = .next v ∧ Agree u v := by
  induction n generalizing s t with
  | zero => exact ⟨t, rfl, Host.Outcome.next.inj hs ▸ h⟩
  | succ n ih =>
    obtain ⟨s', hs', hrest⟩ := steps_succ_next hs
    obtain ⟨t', ht', h'⟩ := h.step hs'
    rw [steps_succ_of_next ht']
    exact ih h' hrest

end Agree

/-- Settles O60: the `INIT` makes the two states agree on all that is alive, and every step keeps that. -/
theorem digestForgetsWhatCameBeforeInit : Obligations.DigestForgetsWhatCameBeforeInit := by
  intro n s t u rest hb hr he hh hs ht hport hrun
  have hbt : t.busy = false := (congrArg busyPhase hport.ph.symm).trans hb
  have hinit := step_init hb hr he hh
  have hinit' := step_init hbt (hport.rc ▸ hr) (hport.err ▸ he) (hport.host ▸ hh)
  have hagree : Agree { s with host := rest, H := IV, len := 0, rc := 0, ph := .absorb }
      { t with host := rest, H := IV, len := 0, rc := 0, ph := .absorb } :=
    .of_init (s := { s with host := rest }) (t := { t with host := rest })
      { hport with host := rfl } hs ht
  rw [steps_succ_of_next hinit] at hrun
  obtain ⟨v, hv, huv⟩ := hagree.steps hrun
  refine ⟨v, (steps_succ_of_next hinit' n).trans hv, ?_⟩
  obtain ⟨hph, hrc, herr, hecode, hhost, hrsp, hdraws⟩ := huv.port
  exact ⟨hph.symm, hrc.symm, herr.symm, hecode.symm, hhost.symm, hdraws.symm,
    congrArg List.length hrsp.symm, huv.digest, fun _ => hrsp.symm⟩

end Sys2Proof.Machine

/-! # Scope: the invariants of the state

The proofs of the statements about section 6 of `10_state.md`: which registers an instruction writes (R37),
where `LEN` changes (R34(f)), what every step keeps (R34), and what `IDLE` leaves behind (R38). -/

/-! ## What each instruction can do

`exec_effect` says what some instruction can have done; these say it of each command by name. -/

namespace Sys2Proof.Machine

open Statements

variable {s t : State}

theorem exec_init_next (h : exec .init s = .next t) :
    t = s ∨ s.busy = false ∧ s.err = false ∧ t = { s with H := IV, len := 0, rc := 0, ph := .absorb } := by
  rw [exec_init] at h
  rcases command_next h with ⟨-, rfl⟩ | ⟨hb, rfl⟩
  · exact .inl rfl
  · split
    · exact .inl rfl
    · exact .inr ⟨hb, eq_false_of_ne_true ‹_›, rfl⟩

theorem exec_final_next (h : exec .final s = .next t) :
    t = s ∨ s.busy = false ∧ s.err = false ∧
      (s.ph ≠ .absorb ∧ t = s.raise .phaseViolation ∨
        s.ph = .absorb ∧ t = { s with ph := .pad1 }) := by
  rw [exec_final] at h
  rcases command_next h with ⟨-, rfl⟩ | ⟨hb, rfl⟩
  · exact .inl rfl
  · split
    · exact .inl rfl
    · refine .inr ⟨hb, eq_false_of_ne_true ‹_›, ?_⟩
      split
      · exact .inl ⟨‹_›, rfl⟩
      · exact .inr ⟨not_ne_iff.mp ‹_›, rfl⟩

theorem exec_status_next (h : exec .status s = .next t) :
    t = s ∨ s.busy = false ∧ t = s.respond s.statusByte := by
  rw [exec_status] at h
  exact (command_next h).imp_left And.right

theorem exec_data_next {byte : Byte} (h : exec (.data byte) s = .next t) :
    t = s ∨ s.busy = false ∧ s.err = false ∧
      (s.ph ≠ .absorb ∧ t = s.raise .phaseViolation ∨
        s.ph = .absorb ∧ s.len = maxLen ∧ t = s.raise .lengthOverflow ∨
        s.ph = .absorb ∧ s.len ≠ maxLen ∧ t = s.acceptByte byte) := by
  rw [exec_data] at h
  rcases command_next h with ⟨-, rfl⟩ | ⟨hb, rfl⟩
  · exact .inl rfl
  · split
    · exact .inl rfl
    · refine .inr ⟨hb, eq_false_of_ne_true ‹_›, ?_⟩
      split
      · exact .inl ⟨‹_›, rfl⟩
      · have hp := not_ne_iff.mp ‹_›
        split
        · exact .inr (.inl ⟨hp, ‹_›, rfl⟩)
        · exact .inr (.inr ⟨hp, ‹_›, rfl⟩)

theorem exec_read_next {idx : BitVec 4} (h : exec (.read idx) s = .next t) :
    t = s ∨ s.busy = false ∧
      (s.err = true ∧ t = s.respondFree ∨
        s.err = false ∧ s.ph ≠ .done ∧ t = (s.raise .phaseViolation).respondFree ∨
        s.err = false ∧ s.ph = .done ∧ t = s.respond (digestByte s.H idx)) := by
  rw [exec_read] at h
  rcases command_next h with ⟨-, rfl⟩ | ⟨hb, rfl⟩
  · exact .inl rfl
  · refine .inr ⟨hb, ?_⟩
    split
    · exact .inl ⟨‹_›, rfl⟩
    · have he := eq_false_of_ne_true ‹_›
      split
      · exact .inr (.inl ⟨he, ‹_›, rfl⟩)
      · exact .inr (.inr ⟨he, not_ne_iff.mp ‹_›, rfl⟩)

/-! ### The rounds are micro-steps -/

/-- The table writes a command as a word of the port (R55). -/
theorem encode_of_hostCommand {i : Instr} (h : HostCommand i) :
    ∃ cmd, encode i = .command cmd := by
  rcases h with rfl | rfl | rfl | ⟨byte, rfl⟩ | ⟨idx, rfl⟩ <;> exact ⟨_, rfl⟩

/-- The table writes round `n` as `RC = n` (R64). -/
theorem encode_roundInstr {n : Nat} (h : n < 64) :
    encode (roundInstr n) = .sequencer 4#3 (BitVec.ofNat 7 n) := by
  interval_cases n <;> rfl

theorem not_hostCommand_roundInstr {n : Nat} (h : n < 64) :
    ¬ HostCommand (roundInstr n) := by
  intro hi
  obtain ⟨cmd, hc⟩ := encode_of_hostCommand hi
  cases hc.symm.trans (encode_roundInstr h)

theorem roundInstr_ne_acc {n : Nat} (h : n < 64) : roundInstr n ≠ .acc := by
  intro e
  have hc : CodeWord.sequencer 4#3 (BitVec.ofNat 7 n) = .sequencer 4#3 64#7 := by
    rw [← encode_roundInstr h, e]
    rfl
  have hn := congrArg BitVec.toNat (CodeWord.sequencer.inj hc).2
  simp only [BitVec.toNat_ofNat] at hn
  omega

/-- The sequencer selects micro-steps only (R64, R163). -/
theorem not_hostCommand_of_decodeSequencer {p : Phase} {rc : BitVec 7} {i : Instr}
    (h : decodeSequencer (phaseCode p) rc = .instr i) : ¬ HostCommand i := by
  rcases decodeSequencer_cases p rc with
    ⟨-, -, e⟩ | ⟨-, -, e⟩ | ⟨-, -, e⟩ | ⟨-, hn, e⟩ | ⟨-, -, e⟩ | e <;> cases e.symm.trans h
  · simp
  · simp
  · exact not_hostCommand_roundInstr hn
  · simp

/-! ## The write table (R37) -/

/-- Settles O51, one row of the table after the other. -/
theorem digestStateIsWrittenOnlyByInitAndAcc :
    Obligations.DigestStateIsWrittenOnlyByInitAndAcc := by
  intro i s t h
  rcases instr_cases i with rfl | rfl | rfl | ⟨byte, rfl⟩ | ⟨idx, rfl⟩ | rfl | rfl | ⟨n, hn, rfl⟩ | rfl
  · rcases exec_init_next h with rfl | ⟨-, -, rfl⟩ <;> simp [SameBytes, SameRecord]
  · rcases exec_final_next h with rfl | ⟨-, -, ⟨-, rfl⟩ | ⟨-, rfl⟩⟩ <;> simp [SameBytes]
  · rcases exec_status_next h with rfl | ⟨-, rfl⟩ <;> simp [SameBytes, SameRecord]
  · rcases exec_data_next h with rfl | ⟨-, -, ⟨-, rfl⟩ | ⟨-, -, rfl⟩ | ⟨-, -, rfl⟩⟩ <;> simp
  · rcases exec_read_next h with rfl | ⟨-, ⟨-, rfl⟩ | ⟨-, -, rfl⟩ | ⟨-, -, rfl⟩⟩ <;> simp [SameBytes]
  · obtain ⟨-, rfl⟩ := microStep_next (exec_fmt1 s ▸ h)
    simp [SameRecord]
  · obtain ⟨-, rfl⟩ := microStep_next (exec_fmt2 s ▸ h)
    simp [SameRecord]
  · obtain ⟨-, rfl⟩ := microStep_next (exec_roundInstr hn s ▸ h)
    have ha := roundInstr_ne_acc hn
    have hc := not_hostCommand_roundInstr hn
    simp only [HostCommand, not_or] at hc
    simp [SameBytes, SameRecord, HostCommand, hc, ha]
  · obtain ⟨-, rfl⟩ := microStep_next (exec_acc s ▸ h)
    simp [SameBytes, SameRecord]

/-! ## Where `LEN` changes (R24, R34(f)) -/

theorem exec_len_of_ne {i : Instr} (h : exec i s = .next t) (hi : i ≠ .init)
    (hd : ∀ byte, i ≠ .data byte) : t.len = s.len := by
  obtain ⟨-, -, -, hlen, -⟩ := digestStateIsWrittenOnlyByInitAndAcc i s t h
  exact hlen hi hd

theorem exec_init_len (h : exec .init s = .next t) :
    t.len = s.len ∨ t.len = 0#61 ∧ t.ph = .absorb ∧ s.err = false := by
  rcases exec_init_next h with rfl | ⟨-, he, rfl⟩
  · exact .inl rfl
  · exact .inr ⟨rfl, rfl, he⟩

/-- Below the limit of R24 the counter does not wrap. -/
theorem len_add_one_toNat {len : BitVec 61} (h : len ≠ maxLen) : (len + 1).toNat = len.toNat + 1 := by
  have hne : len.toNat ≠ maxLen.toNat := fun e => h (BitVec.eq_of_toNat_eq e)
  rw [maxLen_toNat] at hne
  have hlt := len.isLt
  simp only [BitVec.toNat_add, BitVec.ofNat_eq_ofNat, BitVec.toNat_ofNat]
  omega

theorem exec_data_len {byte : Byte} (h : exec (.data byte) s = .next t) :
    t.len = s.len ∨ t.len.toNat = s.len.toNat + 1 ∧ s.ph = .absorb ∧ s.err = false := by
  rcases exec_data_next h with rfl | ⟨-, he, ⟨-, rfl⟩ | ⟨-, -, rfl⟩ | ⟨hp, hroom, rfl⟩⟩
  · exact .inl rfl
  · exact .inl rfl
  · exact .inl rfl
  · exact .inr ⟨by rw [acceptByte_len, len_add_one_toNat hroom], hp, he⟩

/-- The table writes a command as the word that decodes to it (R56 to R58). -/
theorem encode_of_decodeCommand {cmd : CommandWord} {i : Instr}
    (h : decodeCommand cmd = .instr i) : encode i = .command cmd := by
  unfold decodeCommand at h
  split_ifs at h with hinit hfinal hstatus hdata hread <;> cases h
  · exact hinit ▸ rfl
  · exact hfinal ▸ rfl
  · exact hstatus ▸ rfl
  · have hcmd : cmd.extractLsb' 8 2 ++ cmd.extractLsb' 0 8 = cmd :=
      (BitVec.extractLsb'_append_extractLsb'_eq_extractLsb' rfl).trans BitVec.extractLsb'_eq_self
    exact congrArg CodeWord.command (hdata ▸ hcmd)
  · have hcmd : cmd.extractLsb' 4 6 ++ cmd.extractLsb' 0 4 = cmd :=
      (BitVec.extractLsb'_append_extractLsb'_eq_extractLsb' rfl).trans BitVec.extractLsb'_eq_self
    exact congrArg CodeWord.command (hread ▸ hcmd)

theorem eq_of_decodeCommand_init {cmd : CommandWord} (h : decodeCommand cmd = .instr .init) :
    cmd = 0x001#10 := (CodeWord.command.inj (encode_of_decodeCommand h)).symm

theorem eq_of_decodeCommand_data {cmd : CommandWord} {byte : Byte}
    (h : decodeCommand cmd = .instr (.data byte)) : cmd = 0b01#2 ++ byte :=
  (CodeWord.command.inj (encode_of_decodeCommand h)).symm

/-- Everything a step without a reset does to `LEN`: nothing, or the host presents `INIT` or `DATA` to a
ready core. -/
theorem step_len (hq : s.noReset = true) (h : step s = .next t) :
    t.len = s.len ∨ s.busy = false ∧
      ((t.len = 0#61 ∧ t.ph = .absorb ∧ s.err = false ∧ ∃ rest, s.host = .command 0x001#10 :: rest) ∨
       (t.len.toNat = s.len.toNat + 1 ∧ s.ph = .absorb ∧ s.err = false ∧
         ∃ (byte : Byte) (rest : List HostEvent), s.host = .command (0b01#2 ++ byte) :: rest)) := by
  cases step_next h with
  | resets rest asked => simp [State.noReset, asked] at hq
  | micro i quiet selected runs =>
    have hi := not_hostCommand_of_decodeSequencer selected
    have hlen := exec_len_of_ne runs (fun e => hi (.inl e)) fun byte e =>
      hi (.inr (.inr (.inr (.inl ⟨byte, e⟩))))
    exact .inl (hlen.trans (hostWaits_len s))
  | accepts cmd i rest presented ready legal runs =>
    have hb : s.busy = false := ((decodeSequencer_waits_iff _ _).mp ready).1
    by_cases hi : i = .init
    · subst hi
      obtain rfl := eq_of_decodeCommand_init legal
      exact (exec_init_len runs).imp_right fun ⟨hl, hp, he⟩ =>
        ⟨hb, .inl ⟨hl, hp, he, rest, presented⟩⟩
    by_cases hd : ∃ byte, i = .data byte
    · obtain ⟨byte, rfl⟩ := hd
      obtain rfl := eq_of_decodeCommand_data legal
      exact (exec_data_len runs).imp_right fun ⟨hl, hp, he⟩ =>
        ⟨hb, .inr ⟨hl, hp, he, byte, rest, presented⟩⟩
    · have hlen := exec_len_of_ne runs hi (not_exists.mp hd)
      exact .inl hlen
  | illegal cmd rest presented ready reserved => exact .inl (illegalCommand_len _)
  | idles quiet ready => exact .inl (hostWaits_len s)

/-- Settles O48: `INIT` and `DATA` are taken by a ready core only, the first leads out of `DONE` and the
second is accepted in `ABSORB`. -/
theorem lengthStaysThroughPadding : Obligations.LengthStaysThroughPadding := by
  intro s t hq h
  rcases step_len hq h with hlen | ⟨hb, ⟨hlen, hp, hinit⟩ | ⟨hlen, hp, hdata⟩⟩
  · exact ⟨.inl hlen, fun _ => hlen, fun _ _ => hlen⟩
  · refine ⟨.inr (.inl ⟨hlen, hp, hinit⟩), fun hbusy => ?_, fun _ hdone => ?_⟩
    · simp [hb] at hbusy
    · simp [hp] at hdone
  · refine ⟨.inr (.inr ⟨hlen, hp, hdata⟩), fun hbusy => ?_, fun hdone _ => ?_⟩
    · simp [hb] at hbusy
    · simp [hp] at hdone

/-! ## What every step keeps (R34) -/

namespace State.Inv

/-- A busy core has recorded no fault (R34(d)). -/
theorem err_of_busy (h : s.Inv) (hb : s.busy = true) : s.err = false :=
  eq_false_of_ne_true fun he => by simp [h.err_ready he] at hb

/-- On a ready core only `RC`, the fault record and the buffer are constrained. -/
theorem of_ready (hb : s.busy = false) (hr : s.rc = 0#7) (hz : s.ecode = 0#3 ↔ s.err = false)
    (hle : s.ecode.toNat ≤ 3) (hwf : s.B.wf) : s.Inv where
  rc_le := by simp [hr]
  rc_zero _ := hr
  ecode_zero_iff := hz
  ecode_le := hle
  err_ready _ := hb
  compD_fill hp := absurd (hb.symm.trans (congrArg busyPhase hp)) Bool.false_ne_true
  pad2_fill hp := by rcases hp with hp | hp <;> cases hb.symm.trans (congrArg busyPhase hp)
  mem_wf := hwf

theorem rc_of_ready (h : s.Inv) (hb : s.busy = false) : s.rc = 0#7 :=
  h.rc_zero (eq_false_of_ne_true fun hc =>
    absurd (hb.symm.trans (compressing_busy hc)) Bool.false_ne_true)

/-! ### The shared operations -/

theorem withHost (h : s.Inv) (rest : List HostEvent) : State.Inv { s with host := rest } := { h with }

theorem hostWaits (h : s.Inv) : s.hostWaits.Inv := by
  unfold State.hostWaits
  split
  · exact h.withHost _
  · exact h

theorem respond (h : s.Inv) (b : Byte) : (s.respond b).Inv := { h with }

theorem respondFree (h : s.Inv) : s.respondFree.Inv := { h with }

/-- Each cause has a code from 1 to 3, and a fault is only ever taken by a ready core (R172, R176). -/
theorem raise (h : s.Inv) (hb : s.busy = false) (c : Cause) : (s.raise c).Inv :=
  { h with
    ecode_zero_iff := by cases c <;> simp [causeCode]
    ecode_le := by cases c <;> simp [causeCode]
    err_ready := fun _ => hb }

theorem illegalCommand (h : s.Inv) (hb : s.busy = false) : s.illegalCommand.Inv := by
  unfold State.illegalCommand
  split
  · exact h
  · exact h.raise hb _

/-- Whatever the buffer holds after a reset, the rest of the state is fixed (R188). -/
theorem resetEvent (s : State) : s.resetEvent.Inv :=
  of_ready rfl rfl (by simp) (by simp) (wf_ofFn _)

/-! ### The commands and micro-steps that move data -/

/-- `FILL` is a 6-bit view of `LEN`, so it is back at 0 after byte 63 (R25). -/
theorem fill_acceptByte_of_full (hf : s.fill = 63#6) (byte : Byte) :
    (s.acceptByte byte).fill = 0#6 := by
  have hn : s.len.toNat % 64 = 63 := by rw [← fill_toNat, hf]; rfl
  apply BitVec.eq_of_toNat_eq
  rw [fill_toNat, acceptByte_len, BitVec.toNat_add]
  simp only [BitVec.toNat_ofNat, BitVec.ofNat_eq_ofNat]
  omega

/-- The byte that fills the block leads to `COMP_D` with `FILL` back at 0 (R34(e), R156). -/
theorem acceptByte (h : s.Inv) (he : s.err = false) (hp : s.ph = .absorb) (byte : Byte) :
    (s.acceptByte byte).Inv := by
  have hwf : (s.acceptByte byte).B.wf := by
    rw [acceptByte_B]
    exact wf_write byte h.mem_wf s.fill.isLt
  have hrc : (s.acceptByte byte).rc = 0#7 := by
    rw [acceptByte_rc, h.rc_of_ready (congrArg busyPhase hp)]
    exact ite_self _
  by_cases hf : s.fill = 63#6
  · have hph : (s.acceptByte byte).ph = .compD := by simp [acceptByte_ph, hf]
    exact
      { rc_le := by simp [hrc]
        rc_zero := fun _ => hrc
        ecode_zero_iff := by simpa using h.ecode_zero_iff
        ecode_le := by simpa using h.ecode_le
        err_ready := fun he' => by simp [he] at he'
        compD_fill := fun _ => fill_acceptByte_of_full hf byte
        pad2_fill := fun hp' => by simp [hph] at hp'
        mem_wf := hwf }
  · have hph : (s.acceptByte byte).ph = .absorb := by simp [acceptByte_ph, hf, hp]
    exact of_ready (congrArg busyPhase hph) hrc (by simpa using h.ecode_zero_iff)
      (by simpa using h.ecode_le) hwf

/-- A formatter starts a compression of a padding block; `FMT2` finds `FILL >= 56` (R138, R139). -/
theorem format (h : s.Inv) (he : s.err = false) (f : Nat → Byte) {p : Phase} (hD : p ≠ .compD)
    (hfill : p = .pad2 ∨ p = .compP2 → 56 ≤ s.fill.toNat) :
    State.Inv { s.load with B := Memory.ofFn f, ph := p } :=
  { h with
    rc_le := Nat.zero_le 64
    rc_zero := fun _ => rfl
    err_ready := fun he' => by simp [he] at he'
    compD_fill := fun hp => absurd hp hD
    pad2_fill := hfill
    mem_wf := wf_ofFn f }

theorem round (h : s.Inv) (hc : compressing s.ph = true) {n : Nat} (hn : n < 64) (w : Working) :
    State.Inv { s with w := w, rc := BitVec.ofNat 7 (n + 1) } :=
  { h with
    rc_le := by simp only [BitVec.toNat_ofNat]; omega
    rc_zero := fun hnc => by simp [hc] at hnc }

/-- `ACC` branches to `PAD2` only where the footer had no room (R160). -/
theorem fill_of_nextPhase_pad2 {p : Phase} (hc : compressing p = true) {fill : BitVec 6}
    (h : nextPhase p fill = .pad2) : 56 ≤ fill.toNat := by
  rcases (compressing_iff p).mp hc with rfl | rfl | rfl
  · cases h
  · simp only [nextPhase, ite_eq_right_iff, reduceCtorEq, imp_false] at h
    omega
  · cases h

theorem accumulates (h : s.Inv) (hc : compressing s.ph = true) (H : DigestState) :
    State.Inv { s with H := H, rc := 0, ph := nextPhase s.ph s.fill } := by
  have hnc := compressing_nextPhase hc s.fill
  exact
    { h with
      rc_le := Nat.zero_le 64
      rc_zero := fun _ => rfl
      err_ready := fun he => by simp [h.err_of_busy (compressing_busy hc)] at he
      compD_fill := fun hp =>
        absurd (hnc.symm.trans (congrArg compressing hp)) Bool.false_ne_true
      pad2_fill := fun hp => hp.elim (fill_of_nextPhase_pad2 hc) fun hp =>
        absurd (hnc.symm.trans (congrArg compressing hp)) Bool.false_ne_true }

/-! ### Every step -/

theorem effect (h : s.Inv) (ht : Effect s t) : t.Inv := by
  cases ht with
  | waits busy => exact h
  | ignored ready frozen => exact h
  | frozenRead ready frozen => exact h.respondFree
  | answers ready b => exact h.respond b
  | faults ready sound c => exact h.raise ready c
  | readFaults ready sound => exact (h.raise ready _).respondFree
  | starts ready sound => exact of_ready rfl rfl h.ecode_zero_iff h.ecode_le h.mem_wf
  | accepts sound absorbing room byte => exact h.acceptByte sound absorbing byte
  | ends sound absorbing =>
    exact
      { h with
        rc_zero := fun _ => h.rc_zero (by simp [absorbing, compressing])
        err_ready := fun he => by simp [sound] at he
        compD_fill := fun hp => by cases hp
        pad2_fill := fun hp => by simp at hp }
  | formats1 sel zero =>
    exact h.format (h.err_of_busy (congrArg busyPhase sel)) _ (by simp) (by simp)
  | formats2 sel zero =>
    exact h.format (h.err_of_busy (congrArg busyPhase sel)) _ (by simp)
      fun _ => h.pad2_fill (.inl sel)
  | rounds sel n small count => exact h.round sel small _
  | accumulates sel count => exact h.accumulates sel _

theorem step (h : s.Inv) (ht : Next s t) : t.Inv := by
  cases ht with
  | resets rest asked => exact resetEvent _
  | micro i quiet selected runs => exact h.hostWaits.effect (exec_effect runs)
  | accepts cmd i rest presented ready legal runs => exact (h.withHost rest).effect (exec_effect runs)
  | illegal cmd rest presented ready reserved =>
    exact (h.withHost rest).illegalCommand ((decodeSequencer_waits_iff _ _).mp ready).1
  | idles quiet ready => exact h.hostWaits

end State.Inv

/-- Settles O45: every case of a step keeps each clause of the invariant. -/
theorem stepKeepsTheInvariant : Obligations.StepKeepsTheInvariant :=
  fun _ _ h hs => h.step (step_next hs)

/-! ## What `IDLE` leaves behind (R38) -/

/-- Settles O57: in `IDLE` nothing of the data registers is alive, and every step keeps the agreement. -/
theorem leftoversNeverReachThePort : Obligations.LeftoversNeverReachThePort := by
  intro n s t u hp hs ht hport hrun
  obtain ⟨v, hv, huv⟩ := (Agree.of_idle hport hs ht hp).steps hrun
  exact ⟨v, hv, huv.port, huv.digest⟩

end Sys2Proof.Machine

/-! # Scope: the words of the block buffer (R44) -/

namespace Sys2Proof.Machine

theorem word_toNat (m : Memory) (i : BitVec 4) : (m.word i).toNat =
    (m.read (4 * i.toNat)).toNat + 2 ^ 8 * (m.read (4 * i.toNat + 1)).toNat +
      2 ^ 16 * (m.read (4 * i.toNat + 2)).toNat + 2 ^ 24 * (m.read (4 * i.toNat + 3)).toNat :=
  le32_toNat ..

theorem bytes32_word (m : Memory) (i : BitVec 4) :
    bytes32 (m.word i) = [m.read (4 * i.toNat), m.read (4 * i.toNat + 1),
      m.read (4 * i.toNat + 2), m.read (4 * i.toNat + 3)] :=
  bytes32_le32 ..

theorem bytes32_getD (v : Word) {n : Nat} (h : n < 4) (d : Byte) :
    (bytes32 v).getD n d = byteOf v n := by
  interval_cases n <;> rfl

theorem byteOf_word (m : Memory) (i : BitVec 4) {n : Nat} (h : n < 4) :
    byteOf (m.word i) n = m.read (4 * i.toNat + n) := by
  rw [← bytes32_getD _ h 0, bytes32_word]
  interval_cases n <;> rfl

/-- Settles O13: a block word is `le32` of four neighbouring bytes, and `bytes32` gives these back. -/
theorem blockWordsAreLittleEndian : Obligations.BlockWordsAreLittleEndian := fun m i =>
  ⟨word_toNat m i, fun n hn => by rw [← byteOf_word m i hn, byteOf_toNat]⟩

end Sys2Proof.Machine

/-! # Scope: the decoders, the assembler and the packed round table

The proofs of the statements about `30_encoding.md`: the two decoders by the numbers of their words (R60,
R61, R64), where a step is refused (R65), the words of the assembler's lines (R66), and the packing of a
round-table entry (R63). -/

namespace Sys2Proof.Machine

open Statements

/-! ## The packed round-table word (R63) -/

/-- Appending a bit vector of width `n` shifts the upper part by `n` bits. -/
theorem toNat_append_add {m n : Nat} (x : BitVec m) (y : BitVec n) :
    (x ++ y).toNat = x.toNat * 2 ^ n + y.toNat := by
  rw [BitVec.toNat_append, ← Nat.shiftLeft_add_eq_or_of_lt y.isLt, Nat.shiftLeft_eq]

theorem packEntry_toNat (e : RoundEntry) : (packEntry e).toNat =
    (mixCode e.fn).toNat * 2 ^ 41 + e.g.toNat * 2 ^ 37 + e.s.toNat * 2 ^ 32 + e.k.toNat := by
  simp only [packEntry, toNat_append_add]
  ring

theorem mixCode_surjective : Function.Surjective mixCode := by
  intro c
  have hc : ∀ c : BitVec 2, c = 0#2 ∨ c = 1#2 ∨ c = 2#2 ∨ c = 3#2 := by decide
  rcases hc c with rfl | rfl | rfl | rfl
  · exact ⟨.F, rfl⟩
  · exact ⟨.G, rfl⟩
  · exact ⟨.H, rfl⟩
  · exact ⟨.I, rfl⟩

/-- The four fields are cut from the word at their bit positions. -/
theorem packEntry_surjective : Function.Surjective packEntry := by
  intro v
  obtain ⟨fn, hfn⟩ := mixCode_surjective (v.extractLsb' 41 2)
  refine ⟨⟨fn, v.extractLsb' 37 4, v.extractLsb' 32 5, v.extractLsb' 0 32⟩, ?_⟩
  have hv := v.isLt
  apply BitVec.eq_of_toNat_eq
  simp only [packEntry_toNat, hfn, BitVec.extractLsb'_toNat, Nat.shiftRight_eq_div_pow]
  omega

/-- Settles O7: the fields do not overlap and together cover the word. -/
theorem packedEntryIsTheSumOfItsFields : Obligations.PackedEntryIsTheSumOfItsFields := by
  refine ⟨fun e => ?_, packEntry_surjective, ⟨rfl, rfl⟩, rfl, rfl⟩
  rw [packEntry_toNat]
  cases e.fn <;> rfl

/-! ## The command decoder by the number of the word (R60, R61) -/

/-- The bits from `k` to the top, as a number. -/
theorem extractLsb'_top_toNat {w k n : Nat} (h : w = k + n) (x : BitVec w) :
    (x.extractLsb' k n).toNat = x.toNat / 2 ^ k := by
  rw [BitVec.extractLsb'_toNat, Nat.shiftRight_eq_div_pow,
    Nat.mod_eq_of_lt (Nat.div_lt_of_lt_mul (by rw [← Nat.pow_add, ← h]; exact x.isLt))]

/-- The low bits of a word as a number cut down to their width. -/
theorem extractLsb'_zero_eq_ofNat (cmd : CommandWord) (n : Nat) :
    cmd.extractLsb' 0 n = BitVec.ofNat n (cmd.toNat % 2 ^ n) :=
  BitVec.eq_of_toNat_eq (by simp [BitVec.extractLsb'_toNat])

/-- The decoder by numbers. -/
theorem decodeCommand_eq (cmd : CommandWord) : decodeCommand cmd =
    if cmd.toNat = 0x001 then .instr .init
    else if cmd.toNat = 0x002 then .instr .final
    else if cmd.toNat = 0x003 then .instr .status
    else if cmd.toNat / 256 = 0b01 then .instr (.data (BitVec.ofNat 8 (cmd.toNat % 256)))
    else if cmd.toNat / 16 = 0b100000 then .instr (.read (BitVec.ofNat 4 (cmd.toNat % 16)))
    else .reserved := by
  simp only [decodeCommand, ← BitVec.toNat_inj, extractLsb'_top_toNat, extractLsb'_zero_eq_ofNat]
  rfl

theorem decodeCommand_data {cmd : CommandWord} (h : cmd.toNat / 256 = 0b01) :
    decodeCommand cmd = .instr (.data (BitVec.ofNat 8 (cmd.toNat % 256))) := by
  rw [decodeCommand_eq, if_neg (by omega), if_neg (by omega), if_neg (by omega), if_pos h]

theorem decodeCommand_read {cmd : CommandWord} (h : cmd.toNat / 16 = 0b100000) :
    decodeCommand cmd = .instr (.read (BitVec.ofNat 4 (cmd.toNat % 16))) := by
  rw [decodeCommand_eq, if_neg (by omega), if_neg (by omega), if_neg (by omega), if_neg (by omega),
    if_pos h]

theorem decodeCommand_reserved_iff (cmd : CommandWord) : decodeCommand cmd = .reserved ↔
    cmd.toNat ≠ 0x001 ∧ cmd.toNat ≠ 0x002 ∧ cmd.toNat ≠ 0x003 ∧ cmd.toNat / 256 ≠ 0b01 ∧
      cmd.toNat / 16 ≠ 0b100000 := by
  rw [decodeCommand_eq]
  split_ifs <;> simp [*]

/-- Settles O1, clause by clause. -/
theorem commandWordsDecodeByTheDecoder : Obligations.CommandWordsDecodeByTheDecoder := fun cmd =>
  ⟨fun h => BitVec.eq_of_toNat_eq (y := 0x001#10) h ▸ rfl,
    fun h => BitVec.eq_of_toNat_eq (y := 0x002#10) h ▸ rfl,
    fun h => BitVec.eq_of_toNat_eq (y := 0x003#10) h ▸ rfl,
    decodeCommand_data, decodeCommand_read, (decodeCommand_reserved_iff cmd).mpr⟩

/-- Settles O2: the listed ranges are what the five formats leave out. -/
theorem reservedWordsAreTheListedRanges : Obligations.ReservedWordsAreTheListedRanges := by
  intro cmd
  rw [decodeCommand_reserved_iff]
  have := cmd.isLt
  omega

/-! ## The sequencer's decode and where a step is refused (R64, R65) -/

theorem decodeRoundCounter_unreachable_iff (rc : BitVec 7) :
    decodeRoundCounter rc = .unreachable ↔ 65 ≤ rc.toNat := by
  refine ⟨fun h => ?_, decodeRoundCounter_gt⟩
  by_contra hle
  rcases Nat.lt_or_eq_of_le (Nat.le_of_not_lt hle) with hlt | heq
  · cases (decodeRoundCounter_lt hlt).symm.trans h
  · obtain rfl : rc = 64#7 := BitVec.eq_of_toNat_eq heq
    cases h

/-- With `RC = 0` every phase waits or selects a micro-step. -/
theorem decodeSequencer_zero_ne_unreachable (p : Phase) :
    decodeSequencer (phaseCode p) 0#7 ≠ .unreachable := by
  cases p <;> decide

/-- The unreachable states of the sequencer are the ones that R65 lists. -/
theorem decodeSequencer_unreachable_iff (p : Phase) (rc : BitVec 7) :
    decodeSequencer (phaseCode p) rc = .unreachable ↔
      65 ≤ rc.toNat ∨ (rc.toNat ≠ 0 ∧ ¬ (p = .compD ∨ p = .compP1 ∨ p = .compP2)) := by
  rw [← compressing_iff]
  by_cases hc : compressing p = true
  · simp [decodeSequencer_compressing hc, decodeRoundCounter_unreachable_iff, hc]
  · by_cases hrc : rc = 0#7
    · simp [hrc, decodeSequencer_zero_ne_unreachable]
    · have hn : rc.toNat ≠ 0 := fun h => hrc (BitVec.eq_of_toNat_eq h)
      simp [decodeSequencer_unreachable (eq_false_of_ne_true hc) hrc, hc, hn]

/-- Settles O3, row by row of the table of R64. -/
theorem sequencerDecodesByTheTable : Obligations.SequencerDecodesByTheTable := by
  intro p rc
  have hzero (h : rc.toNat = 0) : rc = 0#7 := BitVec.eq_of_toNat_eq h
  refine ⟨fun hp h => ?_, fun hp h => ?_, fun hp h => ?_, fun hp h => ?_, fun hp h => ?_,
    (decodeSequencer_unreachable_iff p rc).mpr⟩
  · exact (decodeSequencer_waits_iff p rc).mpr ⟨(not_busy_iff p).mpr hp, hzero h⟩
  · rw [hp, hzero h, decodeSequencer_pad1]
  · rw [hp, hzero h, decodeSequencer_pad2]
  · rw [decodeSequencer_compressing ((compressing_iff p).mpr hp), decodeRoundCounter_lt h]
  · rw [decodeSequencer_compressing ((compressing_iff p).mpr hp),
      BitVec.eq_of_toNat_eq (y := 64#7) h, decodeRoundCounter_64]

/-- Only a command word can be reserved (R60). -/
theorem decodeSequencer_ne_reserved (p : Phase) (rc : BitVec 7) :
    decodeSequencer (phaseCode p) rc ≠ .reserved := by
  rcases decodeSequencer_cases p rc with
    ⟨-, -, e⟩ | ⟨-, -, e⟩ | ⟨-, -, e⟩ | ⟨-, -, e⟩ | ⟨-, -, e⟩ | e <;> simp [e]

theorem hostCommand_of_decodeCommand {cmd : CommandWord} {i : Instr}
    (h : decodeCommand cmd = .instr i) : HostCommand i := by
  rcases decodeCommand_cases cmd with e | e | e | ⟨byte, e⟩ | ⟨idx, e⟩ | e <;>
    cases e.symm.trans h <;> simp [HostCommand]

theorem command_has_next (s : State) (f : State → State) : ∃ t, command s f = .next t := by
  cases hb : s.busy with
  | true => exact ⟨s, command_of_busy hb f⟩
  | false => exact ⟨f s, command_of_ready hb f⟩

/-- No command is ever refused: it waits or takes its effect (R154). -/
theorem exec_hostCommand_has_next {i : Instr} (h : HostCommand i) (s : State) :
    ∃ t, exec i s = .next t := by
  rcases h with rfl | rfl | rfl | ⟨byte, rfl⟩ | ⟨idx, rfl⟩
  · exact exec_init s ▸ command_has_next s _
  · exact exec_final s ▸ command_has_next s _
  · exact exec_status s ▸ command_has_next s _
  · exact exec_data byte s ▸ command_has_next s _
  · exact exec_read idx s ▸ command_has_next s _

/-- A micro-step happens in the states that select it (R64, R163(a)). -/
theorem exec_selected_has_next {s : State} {i : Instr}
    (h : decodeSequencer (phaseCode s.ph) s.rc = .instr i) : ∃ t, exec i s = .next t := by
  rcases decodeSequencer_cases s.ph s.rc with
    ⟨-, -, e⟩ | ⟨hp, hr, e⟩ | ⟨hp, hr, e⟩ | ⟨hc, hn, e⟩ | ⟨hc, hr, e⟩ | e <;>
    cases e.symm.trans h
  · exact ⟨_, microStep_selected (decide_eq_true ⟨hp, hr⟩) _⟩
  · exact ⟨_, microStep_selected (decide_eq_true ⟨hp, hr⟩) _⟩
  · rw [exec_roundInstr hn]
    exact ⟨_, microStep_selected (by simp [hc]) _⟩
  · exact ⟨_, microStep_selected (by simp [hc, hr]) _⟩

theorem step_of_unreachable {s : State} (hq : s.noReset = true)
    (hd : decodeSequencer (phaseCode s.ph) s.rc = .unreachable) :
    step s = .refused .unreachableState := by
  simp [step, fetch_of_noReset hq, fetchSequenced, hd]

theorem reset_or_noReset (s : State) :
    (∃ rest, s.host = .reset :: rest) ∨ s.noReset = true :=
  or_iff_not_imp_left.mpr fun h => noReset_of_ne_reset fun rest e => h ⟨rest, e⟩

/-- A ready core always goes on: it takes the command that is presented, or nothing happens. -/
theorem step_has_next_of_waits {s : State} (hq : s.noReset = true)
    (hd : decodeSequencer (phaseCode s.ph) s.rc = .waits) : ∃ t, step s = .next t := by
  rcases fetchCommand_cases s with ⟨cmd, rest, i, hc, hi, -⟩ | ⟨cmd, rest, hc, hi, -⟩ | ⟨hc, -⟩
  · rw [step_of_command hd hc hi]
    exact exec_hostCommand_has_next (hostCommand_of_decodeCommand hi) _
  · exact ⟨_, step_of_reserved hd hc hi⟩
  · exact ⟨_, step_of_no_command hq hd hc⟩

/-- A step answers a next state, or it is refused as R65 says. -/
theorem step_cases (s : State) : (∃ t, step s = .next t) ∨
    decodeSequencer (phaseCode s.ph) s.rc = .unreachable ∧ step s = .refused .unreachableState := by
  rcases reset_or_noReset s with ⟨rest, hr⟩ | hq
  · exact .inl ⟨_, step_of_reset hr⟩
  cases hd : decodeSequencer (phaseCode s.ph) s.rc with
  | instr i =>
    rw [step_of_instr hq hd]
    exact .inl (exec_selected_has_next (by simpa using hd))
  | waits => exact .inl (step_has_next_of_waits hq hd)
  | unreachable => exact .inr ⟨rfl, step_of_unreachable hq hd⟩
  | reserved => exact absurd hd (decodeSequencer_ne_reserved _ _)

theorem step_refused {s : State} {r : Refusal} (h : step s = .refused r) :
    decodeSequencer (phaseCode s.ph) s.rc = .unreachable ∧ r = .unreachableState := by
  rcases step_cases s with ⟨t, ht⟩ | ⟨hd, hs⟩
  · cases ht.symm.trans h
  · cases hs.symm.trans h
    exact ⟨hd, rfl⟩

/-- The invariant leaves out every state that R65 lists. -/
theorem State.Inv.reachable {s : State} (h : s.Inv) :
    decodeSequencer (phaseCode s.ph) s.rc ≠ .unreachable := by
  rw [Ne, decodeSequencer_unreachable_iff, ← compressing_iff]
  rintro (hrc | ⟨hrc, hc⟩)
  · exact absurd h.rc_le (Nat.not_le.mpr hrc)
  · exact hrc (by simp [h.rc_zero (eq_false_of_ne_true hc)])

/-- Settles O42: a refused step is in a state that R65 lists, and there it is refused by that name. -/
theorem unreachableStatesAreRefused : Obligations.UnreachableStatesAreRefused := fun s =>
  ⟨fun hq => Iff.trans ⟨fun h => (step_refused h).1, step_of_unreachable hq⟩
      (decodeSequencer_unreachable_iff s.ph s.rc),
    fun _ h => (step_refused h).2, (nomatch ·),
    fun h => mt (decodeSequencer_unreachable_iff s.ph s.rc).mpr h.reachable⟩

/-! ## The lines of the assembler (R66) -/

theorem assemble_singleton {line : AsmLine} (h : lineWellFormed line = true) :
    assemble [line] = some (lineWords line) := by
  simp [assemble, h]

theorem assemble_eq_none_of_mem {lines : List AsmLine} {line : AsmLine} (hm : line ∈ lines)
    (h : lineWellFormed line = false) : assemble lines = none :=
  if_neg fun hall => by simp [List.all_eq_true.mp hall line hm] at h

theorem dataWord_toNat {n : Nat} (h : n ≤ 255) : (dataWord n).toNat = 0x100 + n := by
  simp only [dataWord, BitVec.toNat_ofNat]
  omega

theorem readWord_toNat {i : Nat} (h : i ≤ 15) : (readWord i).toNat = 0x200 + i := by
  simp only [readWord, BitVec.toNat_ofNat]
  omega

theorem decodeCommand_dataWord {n : Nat} (h : n ≤ 255) :
    decodeCommand (dataWord n) = .instr (.data (BitVec.ofNat 8 n)) := by
  have hn := dataWord_toNat h
  rw [decodeCommand_data (by omega), show (dataWord n).toNat % 256 = n by omega]

theorem decodeCommand_readWord {i : Nat} (h : i ≤ 15) :
    decodeCommand (readWord i) = .instr (.read (BitVec.ofNat 4 i)) := by
  have hi := readWord_toNat h
  rw [decodeCommand_read (by omega), show (readWord i).toNat % 16 = i by omega]

/-- Settles O58, line by line of the table of R66. -/
theorem assembledLinesDecodeToTheirCommands : Obligations.AssembledLinesDecodeToTheirCommands := by
  refine ⟨⟨_, rfl, rfl, rfl⟩, ⟨_, rfl, rfl, rfl⟩, ⟨_, rfl, rfl, rfl⟩, fun n h => ?_, fun i h => ?_,
    fun w h => ?_, fun n before after => ⟨fun h => ?_, fun h => ?_, fun h => ?_⟩⟩
  · exact ⟨_, assemble_singleton (decide_eq_true h), dataWord_toNat h, decodeCommand_dataWord h⟩
  · exact ⟨_, assemble_singleton (decide_eq_true h), readWord_toNat h, decodeCommand_readWord h⟩
  · exact ⟨_, assemble_singleton (decide_eq_true h), Nat.mod_eq_of_lt (Nat.lt_succ_of_le h)⟩
  all_goals
    exact assemble_eq_none_of_mem List.mem_append_cons_self
      (decide_eq_false (Nat.not_le.mpr h))

end Sys2Proof.Machine

/-! # Scope: the round table, rule by rule

The proofs of the eight statements about section 40 of the spec, RND00 to RND63: one lemma says what a
selected round does, one turns an entry of `RT` into the rule that lists it, and each statement checks its
eight entries. -/

namespace Sys2Proof.Machine

open Sys2Proof.Statements

/-- A round that `{PH, RC}` selects completes: it writes the working registers and `RC`, and
nothing else (R145). -/
theorem exec_roundInstr_selected {r : Nat} (hr : r < 64) {s : State} (hc : compressing s.ph = true)
    (hrc : s.rc.toNat = r) : exec (roundInstr r) s = .next
      { s with w := roundWords (RT r) (s.B.word (RT r).g) s.w, rc := BitVec.ofNat 7 (r + 1) } := by
  have hsel : s.rc = BitVec.ofNat 7 r := by rw [← hrc, BitVec.ofNat_toNat, BitVec.setWidth_eq]
  rw [exec_roundInstr hr, roundStep, microStep_selected (by simp [hc, hsel])]

/-- The rule of a round is its entry in the table: the fields `fn`, `g`, `s`, `k` of `RT[r]` give the
function, the block word, the rotate amount and the constant that the rule writes out. -/
theorem roundRule_of_entry {i : Instr} {r g rot : Nat} {k : Word} {packed : BitVec 43} (fn : MixFn)
    (hr : r < 64) (hrot : rot < 32) (hi : roundInstr r = i)
    (he : RT r = ⟨fn, BitVec.ofNat 4 g, BitVec.ofNat 5 rot, k⟩) (hp : packEntry (RT r) = packed) :
    RoundRule i r (mix fn) g rot k packed := by
  subst hi
  refine ⟨hp, fun s hph hrc => ⟨_, exec_roundInstr_selected hr ((compressing_iff s.ph).mpr hph) hrc,
    rfl, ?newB, rfl, rfl, ?newRC, rfl, rfl, fun _ => rfl, rfl, ⟨rfl, rfl⟩, ⟨rfl, rfl, rfl⟩⟩⟩
  case newB => simp [he, roundWords, Nat.mod_eq_of_lt hrot]
  case newRC => exact Nat.mod_eq_of_lt (by omega)

/-- Settles O27: entries 0 to 7, with `F`. -/
theorem firstFRoundsAreTheirRules : Obligations.FirstFRoundsAreTheirRules := by
  refine ⟨?_, ?_, ?_, ?_, ?_, ?_, ?_, ?_⟩ <;>
    exact roundRule_of_entry .F (by decide) (by decide) rfl rfl rfl

/-- Settles O28: entries 8 to 15, with `F`. -/
theorem secondFRoundsAreTheirRules : Obligations.SecondFRoundsAreTheirRules := by
  refine ⟨?_, ?_, ?_, ?_, ?_, ?_, ?_, ?_⟩ <;>
    exact roundRule_of_entry .F (by decide) (by decide) rfl rfl rfl

/-- Settles O29: entries 16 to 23, with `G`. -/
theorem firstGRoundsAreTheirRules : Obligations.FirstGRoundsAreTheirRules := by
  refine ⟨?_, ?_, ?_, ?_, ?_, ?_, ?_, ?_⟩ <;>
    exact roundRule_of_entry .G (by decide) (by decide) rfl rfl rfl

/-- Settles O30: entries 24 to 31, with `G`. -/
theorem secondGRoundsAreTheirRules : Obligations.SecondGRoundsAreTheirRules := by
  refine ⟨?_, ?_, ?_, ?_, ?_, ?_, ?_, ?_⟩ <;>
    exact roundRule_of_entry .G (by decide) (by decide) rfl rfl rfl

/-- Settles O31: entries 32 to 39, with `H`. -/
theorem firstHRoundsAreTheirRules : Obligations.FirstHRoundsAreTheirRules := by
  refine ⟨?_, ?_, ?_, ?_, ?_, ?_, ?_, ?_⟩ <;>
    exact roundRule_of_entry .H (by decide) (by decide) rfl rfl rfl

/-- Settles O32: entries 40 to 47, with `H`. -/
theorem secondHRoundsAreTheirRules : Obligations.SecondHRoundsAreTheirRules := by
  refine ⟨?_, ?_, ?_, ?_, ?_, ?_, ?_, ?_⟩ <;>
    exact roundRule_of_entry .H (by decide) (by decide) rfl rfl rfl

/-- Settles O33: entries 48 to 55, with `I`. -/
theorem firstIRoundsAreTheirRules : Obligations.FirstIRoundsAreTheirRules := by
  refine ⟨?_, ?_, ?_, ?_, ?_, ?_, ?_, ?_⟩ <;>
    exact roundRule_of_entry .I (by decide) (by decide) rfl rfl rfl

/-- Settles O34: entries 56 to 63, with `I`. -/
theorem secondIRoundsAreTheirRules : Obligations.SecondIRoundsAreTheirRules := by
  refine ⟨?_, ?_, ?_, ?_, ?_, ?_, ?_, ?_⟩ <;>
    exact roundRule_of_entry .I (by decide) (by decide) rfl rfl rfl

end Sys2Proof.Machine

/-! # Scope: the padder

The proofs of the statements about `41_padder.md`: the padded message byte by byte (R134, R135), the two
formatter micro-steps and the way into `PAD2` (R138, R139), and the limit of 2^61 - 1 bytes (R141). -/

namespace Sys2Proof.Machine

open Sys2Proof.Statements

/-! ## The padded message -/

theorem padZeros_lt (len : Nat) : padZeros len < 64 := by
  unfold padZeros; omega

/-- The zeros fill the block up to the footer's 8 bytes (R134). -/
theorem padZeros_fills (len : Nat) : (len + 1 + padZeros len) % 64 = 56 := by
  unfold padZeros; omega

theorem padZeros_le {len z : Nat} (h : (len + 1 + z) % 64 = 56) : padZeros len ≤ z := by
  unfold padZeros; omega

/-- A padded message is a whole number of blocks (R135). -/
theorem padded_length_eq_numBlocks (len : Nat) :
    len + 1 + padZeros len + 8 = 64 * numBlocks len := by
  unfold padZeros numBlocks; omega

/-- A message of 56 bytes or more modulo 64 leaves no room for the footer in its last block (R135). -/
theorem numBlocks_eq (len : Nat) : numBlocks len = len / 64 + (if len % 64 ≤ 55 then 1 else 2) := by
  unfold numBlocks
  split <;> omega

/-- The bytes that `Pad` puts after a message: `0x80`, the zeros, the footer (R134). -/
def padding (len : Nat) (h : len ≤ maxLen.toNat) : List Byte :=
  0x80#8 :: (List.replicate (padZeros len) 0x00#8 ++ footer len h)

theorem pad_eq_append_padding {msg : List Byte} (h : msg.length ≤ maxLen.toNat) :
    pad msg = some (msg ++ padding msg.length h) := by
  simp [pad_of_le h, padding]

section Padding

variable {len : Nat} (h : len ≤ maxLen.toNat)

theorem padding_length : (padding len h).length = 1 + padZeros len + 8 := by
  simp [padding]
  omega

theorem padding_zero {j : Nat} (hj : j < padZeros len) : (padding len h)[1 + j]? = some 0x00#8 := by
  simp [padding, Nat.add_comm 1, List.getElem?_append_left, hj]

theorem padding_footer (n : Nat) :
    (padding len h)[1 + (padZeros len + n)]? = (footer len h)[n]? := by
  simp [padding, Nat.add_comm 1, List.getElem?_append_right]

/-- The footer is the bit length, least significant byte first, and nothing of it is cut off (R134,
R141). -/
theorem footer_getD_toNat {n : Nat} (hn : n < 8) :
    ((footer len h).getD n 0).toNat = 8 * len / 2 ^ (8 * n) % 256 := by
  rw [footer, bytes64_getD _ hn, byteOf_toNat, BitVec.toNat_ofNatLT]

end Padding

/-- Settles O55: the message is followed by `padding`, whose length makes the whole a number of blocks. -/
theorem paddingFillsWholeBlocks : Obligations.PaddingFillsWholeBlocks := by
  intro msg hmsg
  have h : msg.length ≤ maxLen.toNat := hmsg
  have hlen : (msg ++ padding msg.length h).length = msg.length + 1 + padZeros msg.length + 8 := by
    rw [List.length_append, padding_length]
    omega
  have hget (k : Nat) :
      (msg ++ padding msg.length h)[msg.length + k]? = (padding msg.length h)[k]? := by
    simp [List.getElem?_append_right]
  refine ⟨_, pad_eq_append_padding h, padZeros_lt _, padZeros_fills _, fun z => padZeros_le,
    List.take_left, hget 0, fun j hj => ?zero, fun n hn => ?footer, hlen,
    hlen.trans (padded_length_eq_numBlocks _), rfl, numBlocks_eq _⟩
  case zero => rw [Nat.add_assoc, hget, padding_zero h hj]
  case footer =>
    have hat : (msg ++ padding msg.length h)[msg.length + 1 + padZeros msg.length + n]? =
        (footer msg.length h)[n]? := by
      rw [Nat.add_assoc, Nat.add_assoc, hget, padding_footer]
    rw [List.getD_eq_getElem?_getD, hat, ← List.getD_eq_getElem?_getD, footer_getD_toNat h hn]

/-! ## The two formatters -/

theorem byteOf_bitlen_toNat (s : State) (n : Nat) :
    (byteOf s.bitlen n).toNat = 8 * s.len.toNat / 2 ^ (8 * n) % 256 := by
  rw [byteOf_toNat, bitlen_toNat]

/-- A formatter writes every byte of the buffer (R48). -/
theorem read_ofFn_of_lt (f : Nat → Byte) {j : Nat} (h : j < 64) : (Memory.ofFn f).read j = f j :=
  (read_ofFn f j).trans (if_pos h)

/-- The footer's addresses are all above `FILL`, or there is no footer (R138). -/
theorem fmt1Byte_below_fill {s : State} {j : Nat} (h : j < s.fill.toNat) :
    fmt1Byte s j = s.B.read j := by
  rw [fmt1Byte, if_neg (by omega), if_pos h]

theorem fmt1Byte_fill (s : State) : fmt1Byte s s.fill.toNat = 0x80#8 := by
  rw [fmt1Byte, if_neg (by omega), if_neg (Nat.lt_irrefl _), if_pos rfl]

theorem fmt1Byte_above_fill {s : State} {j : Nat} (h : s.fill.toNat < j)
    (hj : j < 56 ∨ 56 ≤ s.fill.toNat) : fmt1Byte s j = 0x00#8 := by
  rw [fmt1Byte, if_neg (by omega), if_neg (by omega), if_neg (by omega)]

theorem fmt1Byte_footer {s : State} (h : s.fill.toNat ≤ 55) (n : Nat) :
    fmt1Byte s (56 + n) = byteOf s.bitlen n := by
  rw [fmt1Byte, if_pos ⟨h, Nat.le_add_right 56 n⟩, Nat.add_sub_cancel_left]

theorem fmt2Byte_zero (s : State) {j : Nat} (h : j < 56) : fmt2Byte s j = 0x00#8 :=
  if_neg (Nat.not_le.mpr h)

theorem fmt2Byte_footer (s : State) (n : Nat) : fmt2Byte s (56 + n) = byteOf s.bitlen n := by
  rw [fmt2Byte, if_pos (Nat.le_add_right 56 n), Nat.add_sub_cancel_left]

theorem exec_fmt1_selected {s : State} (hp : s.ph = .pad1) (hr : s.rc = 0#7) :
    exec .fmt1 s = .next { s.load with B := Memory.ofFn (fmt1Byte s), ph := .compP1 } :=
  microStep_selected (decide_eq_true ⟨hp, hr⟩) _

theorem exec_fmt2_selected {s : State} (hp : s.ph = .pad2) (hr : s.rc = 0#7) :
    exec .fmt2 s = .next { s.load with B := Memory.ofFn (fmt2Byte s), ph := .compP2 } :=
  microStep_selected (decide_eq_true ⟨hp, hr⟩) _

/-- Settles O25: the four ranges of addresses that `FMT1` tells apart, by `FILL = LEN mod 64`. -/
theorem firstPaddingBlockIsFormatted : Obligations.FirstPaddingBlockIsFormatted := by
  intro s hp hr
  rw [← fill_toNat]
  have hfill : s.fill.toNat < 64 := s.fill.isLt
  refine ⟨_, exec_fmt1_selected hp hr, fun j hj => ?below, ?fill, fun j hj hj64 hnf => ?above,
    fun hroom n hn => ?footer, rfl, rfl, rfl, rfl, rfl, rfl, ⟨rfl, rfl⟩, ⟨rfl, rfl, rfl⟩⟩
  case below => rw [read_ofFn_of_lt _ (hj.trans hfill), fmt1Byte_below_fill hj]
  case fill => rw [read_ofFn_of_lt _ hfill, fmt1Byte_fill]
  case above => rw [read_ofFn_of_lt _ hj64, fmt1Byte_above_fill hj hnf]
  case footer => rw [read_ofFn_of_lt _ (by omega), fmt1Byte_footer hroom, byteOf_bitlen_toNat]

/-! ## The way into `PAD2` -/

/-- `ACC` branches to `PAD2` only from `COMP_P1` with no room for the footer (R160). -/
theorem nextPhase_eq_pad2 {p : Phase} (hc : compressing p = true) {fill : BitVec 6}
    (h : nextPhase p fill = .pad2) : p = .compP1 ∧ 56 ≤ fill.toNat := by
  refine ⟨?_, State.Inv.fill_of_nextPhase_pad2 hc h⟩
  rcases (compressing_iff p).mp hc with rfl | rfl | rfl
  · cases h
  · rfl
  · cases h

/-- An instruction leaves a state in `PAD2` only where it was in `PAD2` already or is that `ACC`. -/
theorem effect_pad2 {s t : State} (h : Effect s t) (hp : t.ph = .pad2) :
    s.ph = .pad2 ∨ s.ph = .compP1 ∧ s.rc = 64#7 ∧ 56 ≤ s.fill.toNat := by
  cases h with
  | waits busy => exact .inl hp
  | ignored ready frozen => exact .inl hp
  | frozenRead ready frozen => exact .inl hp
  | answers ready b => exact .inl hp
  | faults ready sound c => exact .inl hp
  | readFaults ready sound => exact .inl hp
  | starts ready sound => cases hp
  | accepts sound absorbing room byte =>
    rw [acceptByte_ph, absorbing] at hp
    split at hp <;> cases hp
  | ends sound absorbing => cases hp
  | formats1 sel zero => cases hp
  | formats2 sel zero => cases hp
  | rounds sel n small count => exact .inl hp
  | accumulates sel count =>
    obtain ⟨hc, hfill⟩ := nextPhase_eq_pad2 sel hp
    exact .inr ⟨hc, count, hfill⟩

/-- What `{PH, RC}` selects in `PAD2` is `FMT2`, which leaves it (R64, R139). -/
theorem exec_selected_leaves_pad2 {s t u : State} {i : Instr} (hs : s.ph = .pad2)
    (hd : decodeSequencer (phaseCode s.ph) s.rc = .instr i) (h : exec i u = .next t) :
    t.ph = .compP2 := by
  have hi : i = .fmt2 := by
    rcases decodeSequencer_cases s.ph s.rc with
      ⟨-, -, e⟩ | ⟨hp, -, -⟩ | ⟨-, -, e⟩ | ⟨hc, -, -⟩ | ⟨hc, -, -⟩ | e
    · cases e.symm.trans hd
    · cases hp.symm.trans hs
    · cases e.symm.trans hd
      rfl
    · simp [hs, compressing] at hc
    · simp [hs, compressing] at hc
    · cases e.symm.trans hd
  subst hi
  obtain ⟨-, rfl⟩ := microStep_next (exec_fmt2 u ▸ h)
  rfl

/-- A core that waits for a command is not in `PAD2`. -/
theorem ph_ne_pad2_of_waits {s : State} (h : decodeSequencer (phaseCode s.ph) s.rc = .waits) :
    s.ph ≠ .pad2 := fun hp => by
  have hb := ((decodeSequencer_waits_iff _ _).mp h).1
  simp [hp, busyPhase] at hb

theorem step_into_pad2 {s t : State} (h : step s = .next t) (hp : t.ph = .pad2) :
    s.ph = .compP1 ∧ s.rc = 64#7 ∧ 56 ≤ s.fill.toNat := by
  cases step_next h with
  | resets rest asked => cases hp
  | micro i quiet selected runs =>
    rcases effect_pad2 (exec_effect runs) hp with hs | ⟨hc, hr, hf⟩
    · rw [hostWaits_ph] at hs
      cases hp.symm.trans (exec_selected_leaves_pad2 hs selected runs)
    · rw [fill_toNat, hostWaits_len, ← fill_toNat] at hf
      exact ⟨hostWaits_ph s ▸ hc, hostWaits_rc s ▸ hr, hf⟩
  | accepts cmd i rest presented ready legal runs =>
    exact (effect_pad2 (exec_effect runs) hp).resolve_left (ph_ne_pad2_of_waits ready)
  | illegal cmd rest presented ready reserved =>
    exact absurd ((illegalCommand_ph _).symm.trans hp) (ph_ne_pad2_of_waits ready)
  | idles quiet ready => exact absurd ((hostWaits_ph s).symm.trans hp) (ph_ne_pad2_of_waits ready)

/-- Settles O26: `FMT2` reads no byte of the old buffer, and `step_into_pad2` is its second half. -/
theorem secondPaddingBlockIsFormatted : Obligations.SecondPaddingBlockIsFormatted := by
  refine ⟨fun s hp hr => ⟨_, exec_fmt2_selected hp hr, fun j hj => ?zero, fun n hn => ?footer, rfl, rfl,
    rfl, rfl, rfl, rfl, ⟨rfl, rfl⟩, ⟨rfl, rfl, rfl⟩⟩, fun s t => step_into_pad2⟩
  case zero => rw [read_ofFn_of_lt _ (by omega), fmt2Byte_zero s hj]
  case footer => rw [read_ofFn_of_lt _ (by omega), fmt2Byte_footer, byteOf_bitlen_toNat]

/-! ## The limit (R141) -/

/-- At the limit a message byte is refused: the fault is recorded and nothing else is written (R175). -/
theorem exec_data_at_limit {s : State} (he : s.err = false) (hp : s.ph = .absorb)
    (hl : s.len = maxLen) (byte : Byte) : exec (.data byte) s = .next (s.raise .lengthOverflow) := by
  have hb : s.busy = false := congrArg busyPhase hp
  rw [exec_data, command_of_ready hb]
  simp [he, hp, hl]

theorem len_eq_maxLen {s : State} (h : 2 ^ 61 - 1 < s.len.toNat + 1) : s.len = maxLen := by
  apply BitVec.eq_of_toNat_eq
  have hlt := s.len.isLt
  rw [maxLen_toNat]
  omega

/-- Settles O59: `Pad` is defined up to the limit, and `LEN` stops there. -/
theorem noDigestBeyondTheLimit : Obligations.NoDigestBeyondTheLimit := by
  refine ⟨fun msg hmsg => ?long, fun msg hmsg => ?short, fun s => ⟨bitlen_toNat s, ?fits⟩,
    fun s byte he hp hover => exec_data_at_limit he hp (len_eq_maxLen hover) byte⟩
  case long =>
    have h : maxLen.toNat < msg.length := hmsg
    exact ⟨pad_of_gt h, md5State_of_gt h, md5_of_gt h⟩
  case short =>
    have h : msg.length ≤ maxLen.toNat := Nat.le_of_lt_succ hmsg
    have hstate := md5State_of_pad (pad_of_le h)
    exact ⟨⟨_, pad_of_le h⟩, ⟨_, hstate⟩, ⟨_, md5_of_state hstate⟩⟩
  case fits => exact bitlen_toNat s ▸ s.bitlen.isLt

end Sys2Proof.Machine

/-! # Scope: the compressor

The proofs of the statements about `42_compressor.md`: the round micro-step, generic in `r` (R145), `ACC` with
its branch (R146, R160), and the 65 micro-steps of a block as the function `Compress` (R147). -/

namespace Sys2Proof.Machine

open Sys2Proof.Statements

/-! ## The round micro-step (R145) -/

/-- The word index of an entry of the table is the formula's (R16). -/
theorem RT_g {r : Nat} (h : r < 64) : (RT r).g = BitVec.ofNat 4 (wordIndex r) := by
  obtain ⟨-, hg, -⟩ := RT_fields r h
  rw [← hg, BitVec.ofNat_toNat, BitVec.setWidth_eq]

/-- The selector of an entry of the table chooses the function of the range of `r` (R15). -/
theorem mix_RT {r : Nat} (h : r < 64) (b c d : Word) : mix (RT r).fn b c d = nonlinear r b c d := by
  obtain ⟨hfn, -⟩ := RT_fields r h
  rw [hfn, mix_groupFn]

/-- Settles O35: what a selected round writes, with the entry's fields by their formulas. -/
theorem roundsFollowTheGenericRule : Obligations.RoundsFollowTheGenericRule := by
  intro r s hr hc hrc
  obtain ⟨-, hg, -⟩ := RT_fields r hr
  refine ⟨_, exec_roundInstr_selected hr hc hrc, hg, ?working, ?counter, rfl, rfl, fun _ => rfl, rfl,
    ⟨rfl, rfl⟩, ⟨rfl, rfl, rfl⟩⟩
  case working => simp only [roundWords, mix_RT hr, RT_g hr]
  case counter => exact Nat.mod_eq_of_lt (by omega)

/-! ## `ACC` (R146, R160) -/

theorem exec_acc_selected {s : State} (hc : compressing s.ph = true) (hr : s.rc = 64#7) :
    exec .acc s =
      .next { s with H := accumulate s.H s.w, rc := 0, ph := nextPhase s.ph s.fill } := by
  rw [exec_acc, microStep_selected (by simp [hc, hr])]

theorem nextPhase_compP1_of_le {fill : BitVec 6} (h : fill.toNat ≤ 55) :
    nextPhase .compP1 fill = .done := if_pos h

theorem nextPhase_compP1_of_gt {fill : BitVec 6} (h : 55 < fill.toNat) :
    nextPhase .compP1 fill = .pad2 := if_neg (Nat.not_le.mpr h)

/-- Settles O36: four independent sums, and the branch by `FILL = LEN mod 64`. -/
theorem accumulateAddsIntoTheDigest : Obligations.AccumulateAddsIntoTheDigest := by
  intro s hc hr
  rw [← fill_toNat]
  refine ⟨_, exec_acc_selected hc hr, add32_toNat _ _, add32_toNat _ _, add32_toNat _ _,
    add32_toNat _ _, rfl, fun hp => ?compD, fun hp hroom => ?room, fun hp hfull => ?noRoom,
    fun hp => ?compP2, rfl, fun _ => rfl, rfl, ⟨rfl, rfl⟩, ⟨rfl, rfl, rfl⟩⟩
  case compD => simp only [hp, nextPhase]
  case room => simp only [hp, nextPhase_compP1_of_le hroom]
  case noRoom => simp only [hp, nextPhase_compP1_of_gt hfull]
  case compP2 => simp only [hp, nextPhase]

/-! ## The host's events during a compression

A busy core takes no command, but an event `wait` of the host goes by with each step (log entry 1), so the
events after `n` micro-steps are an iterate of this function. -/

/-- The host's events after one micro-step: a `wait` has gone by, a command still waits (R154). -/
def eventsLeft : List HostEvent → List HostEvent
  | .wait :: rest => rest
  | events => events

theorem hostWaits_eq (s : State) : s.hostWaits = { s with host := eventsLeft s.host } := by
  unfold State.hostWaits eventsLeft
  split <;> simp_all

theorem eventsLeft_subset (events : List HostEvent) : eventsLeft events ⊆ events := by
  unfold eventsLeft
  split
  · exact List.subset_cons_self _ _
  · exact List.Subset.refl _

theorem iterate_eventsLeft_subset (n : Nat) (events : List HostEvent) :
    eventsLeft^[n] events ⊆ events := by
  induction n with
  | zero => exact List.Subset.refl _
  | succ n ih =>
    rw [Function.iterate_succ_apply']
    exact List.Subset.trans (eventsLeft_subset _) ih

theorem reset_not_mem_iterate {events : List HostEvent} (h : HostEvent.reset ∉ events) (n : Nat) :
    HostEvent.reset ∉ eventsLeft^[n] events :=
  fun hm => h (iterate_eventsLeft_subset n events hm)

theorem noReset_of_not_mem {s : State} (h : HostEvent.reset ∉ s.host) : s.noReset = true :=
  noReset_of_ne_reset fun _ e => h (e ▸ List.mem_cons_self)

/-! ## The 65 micro-steps of a block (R147) -/

/-- A block word of the function is the word that the hardware reads in the buffer (R44, R147). -/
theorem blockWord_bytes (m : Memory) (i : BitVec 4) : blockWord m.bytes i = m.word i := by
  have hi := i.isLt
  have hget {a : Nat} (ha : a < 64) : m.bytes.getD a 0 = m.read a := bytes_getD m ha 0
  rw [blockWord, hget (by omega), hget (by omega), hget (by omega), hget (by omega), Memory.word]

/-- A step in a compression phase with `RC = r < 64` is round `r`. -/
theorem step_round {s : State} {r : Nat} (hr : r < 64) (hc : compressing s.ph = true)
    (hrc : s.rc.toNat = r) (hq : HostEvent.reset ∉ s.host) : step s = .next
      { s with w := roundWords (RT r) (s.B.word (RT r).g) s.w, rc := BitVec.ofNat 7 (r + 1),
               host := eventsLeft s.host } := by
  have hd : decodeSequencer (phaseCode s.ph) s.rc = .instr (roundInstr r) := by
    rw [decodeSequencer_compressing hc, decodeRoundCounter_lt (hrc ▸ hr), hrc]
  rw [step_of_instr (noReset_of_not_mem hq) hd, hostWaits_eq,
    exec_roundInstr_selected (s := { s with host := eventsLeft s.host }) hr hc hrc]

/-- A step in a compression phase with `RC = 64` is `ACC`. -/
theorem step_acc {s : State} (hc : compressing s.ph = true) (hr : s.rc = 64#7)
    (hq : HostEvent.reset ∉ s.host) : step s = .next
      { s with H := accumulate s.H s.w, rc := 0, ph := nextPhase s.ph s.fill,
               host := eventsLeft s.host } := by
  have hd : decodeSequencer (phaseCode s.ph) s.rc = .instr .acc := by
    rw [decodeSequencer_compressing hc, hr, decodeRoundCounter_64]
  rw [step_of_instr (noReset_of_not_mem hq) hd, hostWaits_eq,
    exec_acc_selected (s := { s with host := eventsLeft s.host }) hc hr]
  rfl

theorem steps_append_step {n : Nat} {s t u : State} (h : steps n s = .next t) (g : step t = .next u) :
    steps (n + 1) s = .next u :=
  steps_trans h (steps_succ_of_next g 0)

section Compression

variable {s : State} (hc : compressing s.ph = true) (hr : s.rc = 0#7)
  (hq : HostEvent.reset ∉ s.host)
include hc hr hq

/-- The first `n` rounds of a block, with everything they leave in the state. -/
theorem steps_rounds {n : Nat} (hn : n ≤ 64) : steps n s = .next
    { s with w := roundsOf s.B.bytes s.w n, rc := BitVec.ofNat 7 n, host := eventsLeft^[n] s.host } := by
  induction n with
  | zero => simp [roundsOf, ← hr]
  | succ n ih =>
    have hrc : (BitVec.ofNat 7 n).toNat = n := Nat.mod_eq_of_lt (by omega)
    have hhost := reset_not_mem_iterate hq n
    rw [steps_append_step (ih (by omega)) (step_round hn hc hrc hhost)]
    simp only [roundsOf, blockWord_bytes, Function.iterate_succ_apply']

/-- The 64 rounds and `ACC`, with everything they leave in the state (R147). -/
theorem steps_compression (hw : s.w = ⟨s.H.h0, s.H.h1, s.H.h2, s.H.h3⟩) : steps 65 s = .next
    { s with H := compress s.H s.B.bytes, w := roundsOf s.B.bytes s.w 64, rc := 0,
             ph := nextPhase s.ph s.fill, host := eventsLeft^[65] s.host } := by
  have hhost := reset_not_mem_iterate hq 64
  rw [steps_append_step (steps_rounds hc hr hq le_rfl) (step_acc hc rfl hhost), compress, ← hw,
    Function.iterate_succ_apply' _ 64]
  -- By unfolding: to compare the states themselves the kernel would run the 64 rounds.
  simp only [State.fill]

end Compression

/-- Settles O52: the rounds follow the recursion of `Compress`, and `ACC` adds. -/
theorem compressionComputesCompress : Obligations.CompressionComputesCompress :=
  fun _ hc hr hw hq =>
    ⟨_, steps_compression hc hr hq hw, rfl, rfl, rfl, rfl, rfl, ⟨rfl, rfl⟩, rfl⟩

end Sys2Proof.Machine

/-! # Scope: the driver's commands

The proofs of the statements about `43_driver_commands.md`: what `INIT`, `DATA`, `FINAL` and `STATUS` do (R155 to
R158), who acts next (R154, R163), the phases (R159), the end of a busy stretch (R163, R197), and the message
script from `INIT` to the digest (R162 to R166). -/

namespace Sys2Proof.Machine

open Sys2Proof.Statements

/-! ## What a ready core does with a command (R155 to R158, R177) -/

section Commands

variable {s : State}

/-- A frozen core ignores these three commands (R177). -/
theorem exec_frozen {i : Instr} (hi : i = .init ∨ i = .final ∨ ∃ byte, i = .data byte)
    (hb : s.busy = false) (he : s.err = true) : exec i s = .next s := by
  rcases hi with rfl | rfl | ⟨byte, rfl⟩
  · rw [exec_init, command_of_ready hb, if_pos he]
  · rw [exec_final, command_of_ready hb, if_pos he]
  · rw [exec_data, command_of_ready hb, if_pos he]

/-- `DATA` and `FINAL` fault outside `ABSORB` (R174). -/
theorem exec_outside_absorb {i : Instr} (hi : i = .final ∨ ∃ byte, i = .data byte)
    (hb : s.busy = false) (he : s.err = false) (hp : s.ph ≠ .absorb) :
    exec i s = .next (s.raise .phaseViolation) := by
  rcases hi with rfl | ⟨byte, rfl⟩
  · rw [exec_final, command_of_ready hb]
    simp [he, hp]
  · rw [exec_data, command_of_ready hb]
    simp [he, hp]

theorem exec_init_sound (hb : s.busy = false) (he : s.err = false) :
    exec .init s = .next { s with H := IV, len := 0, rc := 0, ph := .absorb } := by
  rw [exec_init, command_of_ready hb]
  simp [he]

theorem exec_final_absorb (he : s.err = false) (hp : s.ph = .absorb) :
    exec .final s = .next { s with ph := .pad1 } := by
  have hb : s.busy = false := congrArg busyPhase hp
  rw [exec_final, command_of_ready hb]
  simp [he, hp]

theorem exec_data_absorb (he : s.err = false) (hp : s.ph = .absorb) (hl : s.len ≠ maxLen)
    (byte : Byte) : exec (.data byte) s = .next (s.acceptByte byte) := by
  have hb : s.busy = false := congrArg busyPhase hp
  rw [exec_data, command_of_ready hb]
  simp [he, hp, hl]

theorem not_busy_of_idle_or_done (h : s.ph = .idle ∨ s.ph = .done) :
    s.busy = false ∧ s.ph ≠ .absorb := by
  rcases h with h | h <;> simp [State.busy, busyPhase, h]

theorem len_eq_maxLen_iff : s.len = maxLen ↔ s.len.toNat = 2 ^ 61 - 1 := by
  rw [← BitVec.toNat_inj]
  rfl

theorem fill_eq_63_iff : s.fill = 63#6 ↔ s.fill.toNat = 63 := by
  rw [← BitVec.toNat_inj]
  rfl

end Commands

/-- Settles O14: `INIT` writes constants, so a second one writes the same. -/
theorem initStartsADigest : Obligations.InitStartsADigest := by
  intro s hb
  cases he : s.err with
  | true => exact ⟨s, exec_frozen (.inl rfl) hb he, fun _ => rfl, by simp⟩
  | false =>
    refine ⟨_, exec_init_sound hb he, by simp, fun _ => ⟨⟨rfl, rfl, rfl, rfl⟩, rfl, rfl, rfl, rfl, rfl,
      ?again, rfl, fun _ => rfl, ⟨rfl, rfl⟩, rfl, rfl, rfl⟩⟩
    case again => exact exec_init_sound rfl he

/-- The four fields of the status byte as numbers (R32). -/
theorem statusByte_toNat (s : State) : s.statusByte.toNat =
    128 * s.err.toNat + 16 * s.ecode.toNat + 8 * (if s.ph = .done then 1 else 0) +
      (phaseCode s.ph).toNat := by
  have hdv : s.dv.toNat = if s.ph = .done then 1 else 0 := Bool.cond_decide ..
  simp only [State.statusByte, toNat_append_add, BitVec.toNat_ofBool, hdv]
  ring

/-- Settles O17: the low three bits are the phase, and a ready core is in phase 0, 1 or 7. -/
theorem statusAnswersTheStatusByte : Obligations.StatusAnswersTheStatusByte := by
  intro s hb
  refine ⟨_, s.statusByte, (exec_status s).trans (command_of_ready hb _), rfl, statusByte_toNat s,
    ?phase, rfl, rfl, fun _ => rfl, rfl, rfl, rfl, ⟨rfl, rfl⟩, rfl, rfl⟩
  case phase =>
    rw [statusByte_toNat]
    rcases (not_busy_iff s.ph).mp hb with hp | hp | hp <;> simp [hp, phaseCode] <;> omega

/-! ## From `PAD1` to `DONE` (R138, R139, R157, R160)

`MovedOn` is what a stretch of micro-steps leaves behind, as the commands see it. -/

/-- `t` comes from `s` by micro-steps that end with an `ACC`: the digest state is `H`, only waiting is gone
from the host's events, and no command has been taken. -/
structure MovedOn (H : DigestState) (s t : State) : Prop where
  digest : t.H = H
  rc : t.rc = 0#7
  len : t.len = s.len
  record : SameRecord s t
  rsp : t.rsp = s.rsp
  host : ∃ n, t.host = eventsLeft^[n] s.host

theorem MovedOn.reset_not_mem {H : DigestState} {s t : State} (h : MovedOn H s t)
    (hq : HostEvent.reset ∉ s.host) : HostEvent.reset ∉ t.host := by
  obtain ⟨n, hn⟩ := h.host
  exact hn ▸ reset_not_mem_iterate hq n

theorem MovedOn.trans {H K : DigestState} {s t u : State} (h : MovedOn H s t) (g : MovedOn K t u) :
    MovedOn K s u where
  digest := g.digest
  rc := g.rc
  len := g.len.trans h.len
  record := ⟨g.record.1.trans h.record.1, g.record.2.trans h.record.2⟩
  rsp := g.rsp.trans h.rsp
  host := by
    obtain ⟨m, hm⟩ := h.host
    obtain ⟨n, hn⟩ := g.host
    exact ⟨n + m, by rw [hn, hm, Function.iterate_add_apply]⟩

section Padding

variable {s : State}

theorem step_fmt1 (hp : s.ph = .pad1) (hr : s.rc = 0#7) (hq : HostEvent.reset ∉ s.host) :
    step s = .next { s.load with B := Memory.ofFn (fmt1Byte s), ph := .compP1,
                                 host := eventsLeft s.host } := by
  have hd : decodeSequencer (phaseCode s.ph) s.rc = .instr .fmt1 := by
    rw [hp, hr, decodeSequencer_pad1]
  rw [step_of_instr (noReset_of_not_mem hq) hd, hostWaits_eq,
    exec_fmt1_selected (s := { s with host := eventsLeft s.host }) hp hr]
  rfl

theorem step_fmt2 (hp : s.ph = .pad2) (hr : s.rc = 0#7) (hq : HostEvent.reset ∉ s.host) :
    step s = .next { s.load with B := Memory.ofFn (fmt2Byte s), ph := .compP2,
                                 host := eventsLeft s.host } := by
  have hd : decodeSequencer (phaseCode s.ph) s.rc = .instr .fmt2 := by
    rw [hp, hr, decodeSequencer_pad2]
  rw [step_of_instr (noReset_of_not_mem hq) hd, hostWaits_eq,
    exec_fmt2_selected (s := { s with host := eventsLeft s.host }) hp hr]
  rfl

/-- A formatter and the compression of the block that it has written. -/
theorem steps_formatted {f : Nat → Byte} {p : Phase} (hc : compressing p = true)
    (hq : HostEvent.reset ∉ s.host)
    (h : step s = .next { s.load with B := Memory.ofFn f, ph := p, host := eventsLeft s.host }) :
    ∃ t, steps 66 s = .next t ∧ t.ph = nextPhase p s.fill ∧
      MovedOn (compress s.H (Memory.ofFn f).bytes) s t := by
  have hrun := steps_compression
    (s := { s.load with B := Memory.ofFn f, ph := p, host := eventsLeft s.host }) hc rfl
    (reset_not_mem_iterate hq 1) rfl
  exact ⟨_, (steps_succ_of_next h 65).trans hrun, rfl,
    { digest := rfl, rc := rfl, len := rfl, record := ⟨rfl, rfl⟩, rsp := rfl,
      host := ⟨66, (Function.iterate_succ_apply eventsLeft 65 s.host).symm⟩ }⟩

/-- The digest state after the padding of the message in a state of `PAD1`: one block, or two when the
first has no room for the footer (R138, R139). -/
def State.closedDigest (s : State) : DigestState :=
  let first := compress s.H (Memory.ofFn (fmt1Byte s)).bytes
  if s.fill.toNat ≤ 55 then first else compress first (Memory.ofFn (fmt2Byte s)).bytes

/-- The padding block or blocks, each formatted and compressed. -/
theorem steps_padding (hp : s.ph = .pad1) (hr : s.rc = 0#7) (hq : HostEvent.reset ∉ s.host) :
    ∃ t, steps (if s.fill.toNat ≤ 55 then 66 else 132) s = .next t ∧ t.ph = .done ∧
      MovedOn s.closedDigest s t := by
  obtain ⟨t, ht, htp, hst⟩ := steps_formatted rfl hq (step_fmt1 hp hr hq)
  unfold State.closedDigest
  split
  · exact ⟨t, ht, htp.trans (nextPhase_compP1_of_le ‹_›), hst⟩
  · have htp : t.ph = .pad2 := htp.trans (nextPhase_compP1_of_gt (Nat.lt_of_not_le ‹_›))
    have hqt := hst.reset_not_mem hq
    obtain ⟨u, hu, hup, htu⟩ := steps_formatted rfl hqt (step_fmt2 htp hst.rc hqt)
    have hf : fmt2Byte t = fmt2Byte s := by
      funext j
      simp only [fmt2Byte, State.bitlen, hst.len]
    rw [hst.digest, hf] at htu
    exact ⟨u, steps_trans ht hu, hup, hst.trans htu⟩

end Padding

/-- Settles O15: an accepted byte by the rules of `acceptByte`, a full block by the compression that
follows, the other cases by the rules for a command that is not accepted. -/
theorem dataAppendsAByte : Obligations.DataAppendsAByte := by
  intro s byte
  refine ⟨fun he hp hl hwf => ?accepted, fun he hp => ?phase,
    fun he hp hl => exec_data_at_limit he hp (len_eq_maxLen_iff.mpr hl) byte,
    fun he hb => exec_frozen (.inr (.inr ⟨byte, rfl⟩)) hb he⟩
  case phase =>
    obtain ⟨hb, hp⟩ := not_busy_of_idle_or_done hp
    exact exec_outside_absorb (.inr ⟨byte, rfl⟩) hb he hp
  case accepted =>
    have hroom : s.len ≠ maxLen := mt len_eq_maxLen_iff.mp hl
    refine ⟨_, exec_data_absorb he hp hroom byte, fill_toNat s,
      by rw [acceptByte_B, read_write_same hwf],
      fun a ha => by simp [read_write_other hwf byte ha],
      by rw [acceptByte_len, len_add_one_toNat hroom], fun hf => ?full, fun hf => ?room, by simp,
      by simp [SameRecord], by simp [SameLog]⟩
    case full =>
      have hf := fill_eq_63_iff.mpr hf
      have hph : (s.acceptByte byte).ph = .compD := by simp [acceptByte_ph, hf]
      have hrc : (s.acceptByte byte).rc = 0#7 := by simp [acceptByte_rc, hf]
      have hw : (s.acceptByte byte).w = ⟨s.H.h0, s.H.h1, s.H.h2, s.H.h3⟩ := by simp [acceptByte_w, hf]
      refine ⟨hw, hrc, hph, congrArg busyPhase hph, fun hq => ?_⟩
      obtain ⟨u, hu, -, -, -, hup, hul, -⟩ := compressionComputesCompress (s.acceptByte byte)
        (congrArg compressing hph) hrc (by rw [hw, acceptByte_H]) (by simpa using hq)
      exact ⟨u, hu, by rw [hup, hph, nextPhase],
        (congrArg (BitVec.extractLsb' 0 6) hul).trans (State.Inv.fill_acceptByte_of_full hf byte)⟩
    case room =>
      have hf := mt fill_eq_63_iff.mp hf
      simp [acceptByte_w, acceptByte_rc, acceptByte_ph, hf, hp]

/-- Settles O16: `FINAL` sets the phase, and the padding follows. -/
theorem finalEndsTheMessage : Obligations.FinalEndsTheMessage := by
  intro s
  refine ⟨fun he hp => ⟨_, exec_final_absorb he hp, rfl, rfl, rfl, rfl, fun _ => rfl, rfl, rfl, ⟨rfl, rfl⟩,
    ⟨rfl, rfl, rfl⟩, fun hr hq => ?run⟩, fun he hp => ?phase,
    fun he hb => exec_frozen (.inr (.inl rfl)) hb he⟩
  case run =>
    obtain ⟨u, hu, hup, -⟩ := steps_padding (s := { s with ph := .pad1 }) rfl hr hq
    exact ⟨u, fill_toNat s ▸ hu, hup⟩
  case phase =>
    obtain ⟨hb, hp⟩ := not_busy_of_idle_or_done hp
    exact exec_outside_absorb (.inl rfl) hb he hp

/-! ## Who acts next (R154, R163) -/

/-- Settles O38: the step of a decoded instruction, with a `wait` first or not. -/
theorem decodedInstructionRuns : Obligations.DecodedInstructionRuns := by
  refine ⟨fun s i hq _ hd => ⟨fun rest hh => ?waits, fun hh => ?stays⟩,
    fun s i cmd rest hh _ hd hi => step_of_command hd hh hi⟩
  case waits => rw [step_of_instr hq hd, hostWaits_eq, hh, eventsLeft]
  case stays =>
    have hhost : s.hostWaits = s := by
      unfold State.hostWaits
      split
      · exact absurd ‹_› (hh _)
      · rfl
    rw [step_of_instr hq hd, hhost]

theorem exec_hostCommand_of_busy {s : State} {i : Instr} (hb : s.busy = true) (hi : HostCommand i) :
    exec i s = .next s := by
  rcases hi with rfl | rfl | rfl | ⟨byte, rfl⟩ | ⟨idx, rfl⟩
  · exact exec_init s ▸ command_of_busy hb _
  · exact exec_final s ▸ command_of_busy hb _
  · exact exec_status s ▸ command_of_busy hb _
  · exact exec_data byte s ▸ command_of_busy hb _
  · exact exec_read idx s ▸ command_of_busy hb _

/-- No instruction touches the host's events (log entry 1). -/
theorem exec_host {s t : State} {i : Instr} (h : exec i s = .next t) : t.host = s.host := by
  obtain ⟨-, -, -, -, -, -, -, -, hhost⟩ := digestStateIsWrittenOnlyByInitAndAcc i s t h
  exact hhost

/-- Only a busy core has a micro-step selected (R64). -/
theorem busy_of_selected {p : Phase} {rc : BitVec 7} {i : Instr}
    (h : decodeSequencer (phaseCode p) rc = .instr i) : busyPhase p = true := by
  rcases decodeSequencer_cases p rc with
    ⟨-, -, e⟩ | ⟨hp, -, -⟩ | ⟨hp, -, -⟩ | ⟨hc, -, -⟩ | ⟨hc, -, -⟩ | e
  · cases e.symm.trans h
  · exact congrArg busyPhase hp
  · exact congrArg busyPhase hp
  · exact compressing_busy hc
  · exact compressing_busy hc
  · cases e.symm.trans h

/-- A step of a busy core without a reset is a micro-step. -/
theorem step_of_busy {s t : State} (hb : s.busy = true) (hq : s.noReset = true)
    (h : step s = .next t) :
    ∃ i, decodeSequencer (phaseCode s.ph) s.rc = .instr i ∧ exec i s.hostWaits = .next t := by
  have hw : decodeSequencer (phaseCode s.ph) s.rc ≠ .waits := fun hd =>
    Bool.false_ne_true (((decodeSequencer_waits_iff _ _).mp hd).1.symm.trans hb)
  cases step_next h with
  | resets rest asked => simp [State.noReset, asked] at hq
  | micro i quiet selected runs => exact ⟨i, selected, runs⟩
  | accepts cmd i rest presented ready legal runs => exact absurd ready hw
  | illegal cmd rest presented ready reserved => exact absurd ready hw
  | idles quiet ready => exact absurd ready hw

/-- A frozen core that is ready can at most answer (R177). -/
theorem effect_frozen {s t : State} (h : Effect s t) (hb : s.busy = false) (he : s.err = true) :
    SameRegisters s t := by
  cases h with
  | waits busy => exact ⟨rfl, rfl, fun _ => rfl, rfl, rfl, rfl, rfl, rfl⟩
  | ignored ready frozen => exact ⟨rfl, rfl, fun _ => rfl, rfl, rfl, rfl, rfl, rfl⟩
  | frozenRead ready frozen => exact ⟨rfl, rfl, fun _ => rfl, rfl, rfl, rfl, rfl, rfl⟩
  | answers ready b => exact ⟨rfl, rfl, fun _ => rfl, rfl, rfl, rfl, rfl, rfl⟩
  | faults ready sound c => simp [he] at sound
  | readFaults ready sound => simp [he] at sound
  | starts ready sound => simp [he] at sound
  | accepts sound absorbing room byte => simp [he] at sound
  | ends sound absorbing => simp [he] at sound
  | formats1 sel zero => simp [State.busy, busyPhase, sel] at hb
  | formats2 sel zero => simp [State.busy, busyPhase, sel] at hb
  | rounds sel n small count => exact absurd (hb.symm.trans (compressing_busy sel)) Bool.false_ne_true
  | accumulates sel count => exact absurd (hb.symm.trans (compressing_busy sel)) Bool.false_ne_true

/-- Settles O22: a busy core leaves the command first, a ready one takes it, legal or reserved. -/
theorem busyCoreMakesCommandsWait : Obligations.BusyCoreMakesCommandsWait := by
  refine ⟨fun s i => exec_hostCommand_of_busy, fun s t cmd rest hb hh h => ?waits,
    fun s cmd rest hb hr hh => ?taken⟩
  case waits =>
    obtain ⟨i, -, hrun⟩ := step_of_busy hb (noReset_of_command hh) h
    rw [exec_host hrun, hostWaits_eq, hh]
    rfl
  case taken =>
    have hd := (decodeSequencer_waits_iff s.ph s.rc).mpr ⟨hb, hr⟩
    rcases fetchCommand_cases s with ⟨_, _, i, hc, hi, -⟩ | ⟨_, _, hc, hi, -⟩ | ⟨hc, -⟩
    · cases hc.symm.trans hh
      obtain ⟨t, ht⟩ := exec_hostCommand_has_next (hostCommand_of_decodeCommand hi)
        { s with host := rest }
      refine ⟨t, (step_of_command hd hh hi).trans ht, exec_host ht,
        effect_frozen (s := { s with host := rest }) (exec_effect ht) hb, by simp [hi], fun j hj => ?_⟩
      cases hi.symm.trans hj
      exact ht
    · cases hc.symm.trans hh
      refine ⟨_, step_of_reserved hd hh hi, illegalCommand_host _, fun he => ?_, fun he _ => ?_,
        by simp [hi]⟩
      · rw [illegalCommand_of_err (s := { s with host := rest }) he]
        exact ⟨rfl, rfl, fun _ => rfl, rfl, rfl, rfl, rfl, rfl⟩
      · rw [illegalCommand_of_not_err (s := { s with host := rest }) he]
        exact ⟨rfl, rfl⟩
    · exact absurd hh (hc cmd rest)

/-- Settles O43: of the sequencer's answers the invariant leaves out the unreachable ones. -/
theorem exactlyOneAgentIsEnabled : Obligations.ExactlyOneAgentIsEnabled := by
  intro s h
  refine ⟨rfl, decide_eq_true_iff, ?busy, fun hb => ?micro, fun hready => ?command⟩
  case busy => cases hp : s.ph <;> simp [State.busy, busyPhase, hp]
  case micro =>
    cases hd : decodeSequencer (phaseCode s.ph) s.rc with
    | instr i => exact ⟨i, not_hostCommand_of_decodeSequencer hd, rfl⟩
    | reserved => exact absurd hd (decodeSequencer_ne_reserved _ _)
    | waits =>
      exact absurd (((decodeSequencer_waits_iff _ _).mp hd).1.symm.trans hb) Bool.false_ne_true
    | unreachable => exact absurd hd h.reachable
  case command =>
    have hb := (ready_iff s).mp hready
    exact (decodeSequencer_waits_iff _ _).mpr ⟨hb, h.rc_of_ready hb⟩

/-! ## The phases (R159) -/

/-- The rows of the transition table for a busy core: the formatters, the rounds and `ACC`. -/
inductive MicroRow (s t : State) : Prop where
  | format1 (sel : s.ph = .pad1) (goes : t.ph = .compP1)
  | format2 (sel : s.ph = .pad2) (goes : t.ph = .compP2)
  | round (sel : compressing s.ph = true) (small : s.rc.toNat < 64) (goes : t.ph = s.ph)
      (count : t.rc.toNat = s.rc.toNat + 1)
  | acc (sel : compressing s.ph = true) (last : s.rc = 64#7) (goes : t.ph = nextPhase s.ph s.fill)
      (zero : t.rc = 0#7)

theorem step_microRow {s t : State} (hb : s.busy = true) (hq : s.noReset = true)
    (h : step s = .next t) : MicroRow s t := by
  obtain ⟨i, hd, hrun⟩ := step_of_busy hb hq h
  rcases decodeSequencer_cases s.ph s.rc with
    ⟨-, -, e⟩ | ⟨hp, -, e⟩ | ⟨hp, -, e⟩ | ⟨hc, hn, e⟩ | ⟨hc, hr, e⟩ | e <;> cases e.symm.trans hd
  · obtain ⟨-, rfl⟩ := microStep_next (exec_fmt1 _ ▸ hrun)
    exact .format1 hp rfl
  · obtain ⟨-, rfl⟩ := microStep_next (exec_fmt2 _ ▸ hrun)
    exact .format2 hp rfl
  · obtain ⟨-, rfl⟩ := microStep_next (exec_roundInstr hn _ ▸ hrun)
    exact .round hc hn (hostWaits_ph s) (Nat.mod_eq_of_lt (by omega))
  · obtain ⟨-, rfl⟩ := microStep_next (exec_acc _ ▸ hrun)
    exact .acc hc hr (by simp [State.fill]) rfl

/-- The rows of the transition table for a ready core: `INIT`, `DATA`, `FINAL`, and whatever else the host
does. -/
inductive CommandRow (s t : State) : Prop where
  | stays (goes : t.ph = s.ph) (same : t.len = s.len)
  | init (goes : t.ph = .absorb) (zero : t.len = 0#61)
      (word : ∃ rest, s.host = .command 0x001#10 :: rest)
  | data (sel : s.ph = .absorb) (goes : t.ph = if s.fill.toNat = 63 then .compD else .absorb)
      (word : ∃ (byte : Byte) (rest : List HostEvent), s.host = .command (0b01#2 ++ byte) :: rest)
  | final (sel : s.ph = .absorb) (goes : t.ph = .pad1)
      (word : ∃ rest, s.host = .command 0x002#10 :: rest)

theorem eq_of_decodeCommand_final {cmd : CommandWord} (h : decodeCommand cmd = .instr .final) :
    cmd = 0x002#10 := (CodeWord.command.inj (encode_of_decodeCommand h)).symm

theorem step_commandRow {s t : State} (hb : s.busy = false) (hq : s.noReset = true)
    (h : step s = .next t) : CommandRow s t := by
  cases step_next h with
  | resets rest asked => simp [State.noReset, asked] at hq
  | micro i quiet selected runs =>
    exact absurd (hb.symm.trans (busy_of_selected selected)) Bool.false_ne_true
  | accepts cmd i rest presented ready legal runs =>
    rcases hostCommand_of_decodeCommand legal with rfl | rfl | rfl | ⟨byte, rfl⟩ | ⟨idx, rfl⟩
    · obtain rfl := eq_of_decodeCommand_init legal
      rcases exec_init_next runs with rfl | ⟨-, -, rfl⟩
      · exact .stays rfl rfl
      · exact .init rfl rfl ⟨rest, presented⟩
    · obtain rfl := eq_of_decodeCommand_final legal
      rcases exec_final_next runs with rfl | ⟨-, -, ⟨-, rfl⟩ | ⟨hp, rfl⟩⟩
      · exact .stays rfl rfl
      · exact .stays rfl rfl
      · exact .final hp rfl ⟨rest, presented⟩
    · rcases exec_status_next runs with rfl | ⟨-, rfl⟩ <;> exact .stays rfl rfl
    · obtain rfl := eq_of_decodeCommand_data legal
      rcases exec_data_next runs with rfl | ⟨-, -, ⟨-, rfl⟩ | ⟨-, -, rfl⟩ | ⟨hp, -, rfl⟩⟩
      · exact .stays rfl rfl
      · exact .stays rfl rfl
      · exact .stays rfl rfl
      · refine .data hp ?_ ⟨byte, rest, presented⟩
        rw [acceptByte_ph, hp]
        exact if_congr fill_eq_63_iff rfl rfl
    · rcases exec_read_next runs with rfl | ⟨-, ⟨-, rfl⟩ | ⟨-, -, rfl⟩ | ⟨-, -, rfl⟩⟩ <;>
        exact .stays rfl rfl
  | illegal cmd rest presented ready reserved =>
    exact .stays (illegalCommand_ph _) (illegalCommand_len _)
  | idles quiet ready => exact .stays (hostWaits_ph s) (hostWaits_len s)

/-- Settles O47, row by row. -/
theorem phasesFollowTheTransitionTable : Obligations.PhasesFollowTheTransitionTable := by
  intro s t _ hq h
  cases hb : s.busy with
  | true =>
    cases step_microRow hb hq h with
    | format1 sel goes => simpa only [sel] using goes
    | format2 sel goes => simpa only [sel] using goes
    | round sel small goes count =>
      rcases (compressing_iff _).mp sel with hp | hp | hp <;> simp [hp, small, count, goes]
    | acc sel last goes zero =>
      rcases (compressing_iff _).mp sel with hp | hp | hp <;>
        simp [hp, last, zero, goes, nextPhase]
  | false =>
    have hrow := step_commandRow hb hq h
    rcases (not_busy_iff _).mp hb with hp | hp | hp <;> simp only [hp]
    · cases hrow with
      | stays goes same => exact .inl (goes.trans hp)
      | init goes zero word => exact .inr ⟨goes, word⟩
      | data sel goes word => cases hp.symm.trans sel
      | final sel goes word => cases hp.symm.trans sel
    · cases hrow with
      | stays goes same => exact .inl ⟨goes.trans hp, by simp [same]⟩
      | init goes zero word => exact .inl ⟨goes, by simp [zero]⟩
      | data sel goes word =>
        have hlt := s.fill.isLt
        split at goes
        · exact .inr (.inl ⟨goes, ‹_›, word⟩)
        · exact .inl ⟨goes, fun _ => by omega⟩
      | final sel goes word => exact .inr (.inr ⟨goes, word⟩)
    · cases hrow with
      | stays goes same => exact .inl (goes.trans hp)
      | init goes zero word => exact .inr ⟨goes, word⟩
      | data sel goes word => cases hp.symm.trans sel
      | final sel goes word => cases hp.symm.trans sel

/-! ## The end of a busy stretch (R163, R197) -/

/-- A bound on the micro-steps that a core still takes before it is ready. -/
def State.stepsLeft (s : State) : Nat :=
  match s.ph with
  | .idle | .absorb | .done => 0
  | .pad1 => 132
  | .pad2 => 66
  | .compD | .compP2 => 65 - s.rc.toNat
  | .compP1 => 131 - s.rc.toNat

theorem stepsLeft_le (s : State) : s.stepsLeft ≤ 132 := by
  unfold State.stepsLeft
  split <;> omega

theorem stepsLeft_lt {s t : State} (h : MicroRow s t) : t.stepsLeft < s.stepsLeft := by
  cases h with
  | format1 sel goes => simp only [State.stepsLeft, sel, goes]; omega
  | format2 sel goes => simp only [State.stepsLeft, sel, goes]; omega
  | round sel small goes count =>
    rcases (compressing_iff _).mp sel with hp | hp | hp <;>
      simp only [State.stepsLeft, goes, hp, count] <;> omega
  | acc sel last goes zero =>
    rcases (compressing_iff _).mp sel with hp | hp | hp <;> rw [hp] at goes
    · simp [State.stepsLeft, goes, hp, last, nextPhase]
    · rcases Nat.lt_or_ge 55 s.fill.toNat with hf | hf
      · rw [nextPhase_compP1_of_gt hf] at goes
        simp [State.stepsLeft, goes, hp, last]
      · rw [nextPhase_compP1_of_le hf] at goes
        simp [State.stepsLeft, goes, hp, last]
    · simp [State.stepsLeft, goes, hp, last, nextPhase]

/-- What the step of a busy core leaves alone (R180, R34(f)). -/
theorem step_of_busy_frame {s t : State} (hb : s.busy = true) (hq : HostEvent.reset ∉ s.host)
    (h : step s = .next t) : SameRecord s t ∧ t.len = s.len ∧ HostEvent.reset ∉ t.host := by
  have hn := noReset_of_not_mem hq
  obtain ⟨i, hd, hrun⟩ := step_of_busy hb hn h
  have hi := not_hostCommand_of_decodeSequencer hd
  simp only [HostCommand, not_or, not_exists] at hi
  obtain ⟨-, hfinal, -, hdata, hread⟩ := hi
  obtain ⟨-, -, -, -, -, -, hrec, -, hhost⟩ := digestStateIsWrittenOnlyByInitAndAcc i _ t hrun
  obtain ⟨-, hlen, -⟩ := lengthStaysThroughPadding s t hn h
  refine ⟨?record, hlen hb, ?host⟩
  case record => simpa [SameRecord] using hrec hdata hfinal hread
  case host =>
    rw [hhost, hostWaits_eq]
    exact fun hm => hq (eventsLeft_subset _ hm)

/-- By induction on the bound, which every micro-step lowers. -/
theorem busy_ends {s : State} (hi : s.Inv) (hq : HostEvent.reset ∉ s.host) :
    ∃ n t, n ≤ s.stepsLeft ∧ steps n s = .next t ∧ t.busy = false ∧ t.Inv ∧ SameRecord s t ∧
      t.len = s.len := by
  induction hm : s.stepsLeft using Nat.strong_induction_on generalizing s with
  | _ m ih =>
    cases hb : s.busy with
    | false => exact ⟨0, s, Nat.zero_le m, rfl, hb, hi, ⟨rfl, rfl⟩, rfl⟩
    | true =>
      obtain ⟨t, ht⟩ := (step_cases s).resolve_right fun hu => hi.reachable hu.1
      have hlt : t.stepsLeft < m := hm ▸ stepsLeft_lt (step_microRow hb (noReset_of_not_mem hq) ht)
      obtain ⟨⟨herr, hecode⟩, hlen, hqt⟩ := step_of_busy_frame hb hq ht
      obtain ⟨n, u, hn, hu, hbu, hiu, ⟨herr', hecode'⟩, hlen'⟩ :=
        ih _ hlt (hi.step (step_next ht)) hqt rfl
      exact ⟨n + 1, u, Nat.succ_le_of_lt (hn.trans_lt hlt), (steps_succ_of_next ht n).trans hu, hbu,
        hiu, ⟨herr'.trans herr, hecode'.trans hecode⟩, hlen'.trans hlen⟩

/-- Settles O53, from the bound in each phase. -/
theorem busyStretchesEnd : Obligations.BusyStretchesEnd := by
  intro s hi _ hq
  obtain ⟨n, t, hn, ht⟩ := busy_ends hi hq
  exact ⟨n, t, hn.trans (stepsLeft_le s), ht⟩

/-! ## The blocks of a message, and of a message that goes on -/

theorem blockOf_append {xs : List Byte} {i : Nat} (h : 64 * (i + 1) ≤ xs.length) (ys : List Byte) :
    blockOf (xs ++ ys) i = blockOf xs i := by
  rw [blockOf, blockOf, List.drop_append_of_le_length (by omega),
    List.take_append_of_le_length (by rw [List.length_drop]; omega)]

/-- The complete blocks of a message are not touched by what follows. -/
theorem foldBlocks_append {xs : List Byte} {n : Nat} (h : 64 * n ≤ xs.length) (ys : List Byte) :
    foldBlocks (xs ++ ys) n = foldBlocks xs n := by
  induction n with
  | zero => rfl
  | succ n ih => rw [foldBlocks, foldBlocks, ih (by omega), blockOf_append h]

/-- A buffer that holds 64 bytes of a list holds a block of it (R136). -/
theorem blockOf_eq_bytes {xs : List Byte} {i : Nat} {m : Memory}
    (h : ∀ j < 64, xs[64 * i + j]? = some (m.read j)) : blockOf xs i = m.bytes := by
  apply List.ext_getElem?
  intro j
  by_cases hj : j < 64
  · rw [blockOf, List.getElem?_take_of_lt hj, List.getElem?_drop, h j hj]
    simp [Memory.bytes, bufferBytes, hj]
  · rw [List.getElem?_eq_none, List.getElem?_eq_none]
    · simpa [bufferBytes] using hj
    · rw [blockOf, List.length_take]
      omega

/-! ## The bytes of a message, absorbed one by one (R156, R166) -/

/-- The core has absorbed the bytes `msg` since `INIT`: `H` has its complete blocks, `B` the rest. -/
structure Absorbed (msg : List Byte) (s : State) : Prop where
  ph : s.ph = .absorb
  rc : s.rc = 0#7
  err : s.err = false
  wf : s.B.wf
  len : s.len.toNat = msg.length
  digest : s.H = foldBlocks msg (msg.length / 64)
  bytes : ∀ j < msg.length % 64, msg[64 * (msg.length / 64) + j]? = some (s.B.read j)

theorem Absorbed.fill {msg : List Byte} {s : State} (h : Absorbed msg s) :
    s.fill.toNat = msg.length % 64 := by rw [fill_toNat, h.len]

theorem Absorbed.withHost {msg : List Byte} {s : State} (h : Absorbed msg s) (rest : List HostEvent) :
    Absorbed msg { s with host := rest } := { h with }

theorem decodeCommand_dataByte (byte : Byte) :
    decodeCommand (0b01#2 ++ byte) = .instr (.data byte) := by
  have hn : (0b01#2 ++ byte : CommandWord).toNat = 256 + byte.toNat := toNat_append_add 1#2 byte
  have hlt := byte.isLt
  have hlow : (0b01#2 ++ byte : CommandWord).toNat % 256 = byte.toNat := by omega
  rw [decodeCommand_data (by omega), hlow, BitVec.ofNat_toNat, BitVec.setWidth_eq]

theorem present_cons (cmd : CommandWord) (words : List CommandWord) :
    present (cmd :: words) = .command cmd :: present words := rfl

/-- A host that presents command words has no event that waiting takes away, and requests no reset. -/
theorem iterate_eventsLeft_present (words : List CommandWord) (n : Nat) :
    eventsLeft^[n] (present words) = present words := by
  refine Function.iterate_fixed ?_ n
  cases words <;> rfl

theorem reset_not_mem_present (words : List CommandWord) : HostEvent.reset ∉ present words := by
  simp [present]

section Absorbing

variable {msg : List Byte} {s : State} (h : Absorbed msg s)
include h

theorem Absorbed.decode : decodeSequencer (phaseCode s.ph) s.rc = .waits :=
  (decodeSequencer_waits_iff _ _).mpr ⟨congrArg busyPhase h.ph, h.rc⟩

theorem Absorbed.len_ne_maxLen (hlen : msg.length < maxLen.toNat) : s.len ≠ maxLen := fun e =>
  absurd h.len (e ▸ hlen.ne')

theorem Absorbed.step_data (hlen : msg.length < maxLen.toNat) {byte : Byte} {words : List CommandWord}
    (hh : s.host = present ((0b01#2 ++ byte) :: words)) :
    step s = .next (State.acceptByte { s with host := present words } byte) := by
  have hroom := h.len_ne_maxLen hlen
  rw [step_of_command h.decode hh (decodeCommand_dataByte byte)]
  exact exec_data_absorb (s := { s with host := present words }) h.err h.ph hroom byte

/-- An accepted byte follows the bytes of the block that are in the buffer. -/
theorem Absorbed.read_acceptByte (byte : Byte) : ∀ j ≤ msg.length % 64,
    (msg ++ [byte])[64 * (msg.length / 64) + j]? = some ((s.acceptByte byte).B.read j) := by
  intro j hj
  rw [acceptByte_B, read_write h.wf, h.fill]
  rcases Nat.lt_or_eq_of_le hj with hlt | rfl
  · rw [if_neg hlt.ne, List.getElem?_append_left (by omega), h.bytes j hlt]
  · rw [if_pos rfl, Nat.div_add_mod, List.getElem?_concat_length]

/-- A byte that does not fill the block (R156). -/
theorem Absorbed.acceptByte (hlen : msg.length < maxLen.toNat) (hf : msg.length % 64 ≠ 63)
    (byte : Byte) : Absorbed (msg ++ [byte]) (s.acceptByte byte) := by
  have hfill : s.fill ≠ 63#6 := mt fill_eq_63_iff.mp (h.fill ▸ hf)
  have hroom := h.len_ne_maxLen hlen
  have hn : (msg ++ [byte]).length = msg.length + 1 := List.length_append
  have hblock : (msg.length + 1) / 64 = msg.length / 64 := by omega
  exact
    { ph := by simp [acceptByte_ph, hfill, h.ph]
      rc := by simp [acceptByte_rc, hfill, h.rc]
      err := by simp [h.err]
      wf := by simpa using wf_write byte h.wf s.fill.isLt
      len := by rw [acceptByte_len, len_add_one_toNat hroom, h.len, hn]
      digest := by rw [acceptByte_H, hn, hblock, foldBlocks_append (by omega), h.digest]
      bytes := fun j hj => by
        rw [hn] at hj
        rw [hn, hblock]
        exact h.read_acceptByte byte j (by omega) }

/-- The byte that fills the block, and the 65 micro-steps of its compression (R147, R156). -/
theorem Absorbed.compress_acceptByte (hlen : msg.length < maxLen.toNat) (hf : msg.length % 64 = 63)
    (byte : Byte) (hq : HostEvent.reset ∉ s.host) : ∃ t, steps 65 (s.acceptByte byte) = .next t ∧
      Absorbed (msg ++ [byte]) t ∧ t.host = eventsLeft^[65] s.host ∧ t.rsp = s.rsp := by
  have hfill : s.fill = 63#6 := fill_eq_63_iff.mpr (h.fill ▸ hf)
  have hroom := h.len_ne_maxLen hlen
  have hph : (s.acceptByte byte).ph = .compD := by simp [acceptByte_ph, hfill]
  have hn : (msg ++ [byte]).length = msg.length + 1 := List.length_append
  have hblock : (msg.length + 1) / 64 = msg.length / 64 + 1 := by omega
  have hbytes : blockOf (msg ++ [byte]) (msg.length / 64) = (s.acceptByte byte).B.bytes :=
    blockOf_eq_bytes fun j hj => h.read_acceptByte byte j (by omega)
  refine ⟨_, steps_compression (congrArg compressing hph) (by simp [acceptByte_rc, hfill])
      (by simpa using hq) (by simp [acceptByte_w, hfill]), ?absorbed, by rw [acceptByte_host],
      acceptByte_rsp s byte⟩
  case absorbed =>
    exact
      { ph := by simp only [hph, nextPhase]
        rc := rfl
        err := by simp [h.err]
        wf := by simpa using wf_write byte h.wf s.fill.isLt
        len := by rw [hn, ← h.len, ← len_add_one_toNat hroom, acceptByte_len]
        digest := by
          rw [hn, hblock, foldBlocks, foldBlocks_append (by omega), ← h.digest, hbytes, acceptByte_H]
        bytes := fun j hj => by omega }

/-- One byte of the message, with the compression that it starts when it fills the block. -/
theorem Absorbed.steps_data (hlen : msg.length < maxLen.toNat) {byte : Byte} {words : List CommandWord}
    (hh : s.host = present ((0b01#2 ++ byte) :: words)) :
    ∃ t, steps (if msg.length % 64 = 63 then 66 else 1) s = .next t ∧ Absorbed (msg ++ [byte]) t ∧
      t.host = present words ∧ t.rsp = s.rsp := by
  have hstep := h.step_data hlen hh
  have h' := h.withHost (present words)
  split
  · obtain ⟨t, ht, habs, hhost, hrsp⟩ :=
      h'.compress_acceptByte hlen ‹_› byte (reset_not_mem_present words)
    exact ⟨t, (steps_succ_of_next hstep 65).trans ht, habs,
      hhost.trans (iterate_eventsLeft_present words 65), hrsp⟩
  · exact ⟨_, steps_succ_of_next hstep 0, h'.acceptByte hlen ‹_› byte, acceptByte_host _ _,
      acceptByte_rsp _ _⟩

end Absorbing

/-- The bytes of a message one after the other, in the number of steps of R162. -/
theorem steps_absorb {msg : List Byte} {words : List CommandWord} {s : State} (h : Absorbed [] s)
    (hlen : msg.length ≤ maxLen.toNat)
    (hh : s.host = present (msg.map (fun byte => 0b01#2 ++ byte) ++ words)) :
    ∃ t, steps (msg.length + 65 * (msg.length / 64)) s = .next t ∧ Absorbed msg t ∧
      t.host = present words ∧ t.rsp = s.rsp := by
  induction msg using List.reverseRecOn generalizing words with
  | nil => exact ⟨s, rfl, h, hh, rfl⟩
  | append_singleton msg byte ih =>
    have hn : (msg ++ [byte]).length = msg.length + 1 := List.length_append
    rw [hn] at hlen
    rw [List.map_append, List.append_assoc] at hh
    obtain ⟨t, ht, habs, hhost, hrsp⟩ := ih (by omega) hh
    obtain ⟨u, hu, habs', hhost', hrsp'⟩ := habs.steps_data (by omega) hhost
    have hcount : (msg ++ [byte]).length + 65 * ((msg ++ [byte]).length / 64) =
        msg.length + 65 * (msg.length / 64) + if msg.length % 64 = 63 then 66 else 1 := by
      rw [hn]
      split <;> omega
    exact ⟨u, hcount ▸ steps_trans ht hu, habs', hhost', hrsp'.trans hrsp⟩

/-! ## The padding that the formatters write is the padding of `Pad` (R140) -/

section Closing

variable {msg : List Byte} {s : State} (hmsg : msg.length ≤ maxLen.toNat)

theorem getElem?_append_padding (k : Nat) :
    (msg ++ padding msg.length hmsg)[msg.length + k]? = (padding msg.length hmsg)[k]? := by
  simp [List.getElem?_append_right]

/-- The footer is the view `BITLEN` of a core that has counted the message (R25, R134). -/
theorem footer_getElem? (hlen : s.len.toNat = msg.length) {n : Nat} (hn : n < 8) :
    (footer msg.length hmsg)[n]? = some (byteOf s.bitlen n) := by
  have hbit : BitVec.ofNatLT (8 * msg.length) (bitLength_lt hmsg) = s.bitlen :=
    BitVec.eq_of_toNat_eq (by rw [BitVec.toNat_ofNatLT, bitlen_toNat, hlen])
  rw [footer, hbit]
  interval_cases n <;> rfl

/-- `FMT1` writes the block of the padded message that begins with the last bytes of the message. -/
theorem Absorbed.padded_eq_fmt1Byte (h : Absorbed msg s) : ∀ j < 64,
    (msg ++ padding msg.length hmsg)[64 * (msg.length / 64) + j]? = some (fmt1Byte s j) := by
  intro j hj
  have hfill := h.fill
  rcases Nat.lt_trichotomy j s.fill.toNat with hlt | heq | hgt
  · rw [fmt1Byte_below_fill hlt, ← h.bytes j (by omega), List.getElem?_append_left (by omega)]
  · rw [heq, fmt1Byte_fill, show 64 * (msg.length / 64) + s.fill.toNat = msg.length + 0 by omega,
      getElem?_append_padding]
    rfl
  · obtain ⟨k, rfl⟩ : ∃ k, j = s.fill.toNat + 1 + k := ⟨j - s.fill.toNat - 1, by omega⟩
    rw [show 64 * (msg.length / 64) + (s.fill.toNat + 1 + k) = msg.length + (1 + k) by omega,
      getElem?_append_padding]
    have hz : padZeros msg.length = if s.fill.toNat ≤ 55 then 55 - s.fill.toNat else
        119 - s.fill.toNat := by
      unfold padZeros
      split <;> omega
    by_cases hk : k < padZeros msg.length
    · rw [padding_zero hmsg hk, fmt1Byte_above_fill hgt (by split at hz <;> omega)]
    · have hroom : s.fill.toNat ≤ 55 := by split at hz <;> omega
      rw [if_pos hroom] at hz
      obtain ⟨n, rfl⟩ : ∃ n, k = padZeros msg.length + n := ⟨k - padZeros msg.length, by omega⟩
      rw [padding_footer, footer_getElem? hmsg h.len (by omega),
        show s.fill.toNat + 1 + (padZeros msg.length + n) = 56 + n by omega, fmt1Byte_footer hroom]

/-- `FMT2` writes the last block of the padded message, where the first had no room (R139). -/
theorem padded_eq_fmt2Byte (hlen : s.len.toNat = msg.length) (hf : 55 < msg.length % 64) : ∀ j < 64,
    (msg ++ padding msg.length hmsg)[64 * (msg.length / 64 + 1) + j]? = some (fmt2Byte s j) := by
  intro j hj
  have hz : padZeros msg.length = 119 - msg.length % 64 := by
    unfold padZeros
    omega
  by_cases hj56 : j < 56
  · obtain ⟨k, hk⟩ : ∃ k, 64 * (msg.length / 64 + 1) + j = msg.length + (1 + k) :=
      ⟨64 * (msg.length / 64 + 1) + j - msg.length - 1, by omega⟩
    rw [hk, getElem?_append_padding, padding_zero hmsg (by omega), fmt2Byte_zero s hj56]
  · obtain ⟨n, rfl⟩ : ∃ n, j = 56 + n := ⟨j - 56, by omega⟩
    have hat : 64 * (msg.length / 64 + 1) + (56 + n) =
        msg.length + (1 + (padZeros msg.length + n)) := by omega
    rw [hat, getElem?_append_padding, padding_footer, footer_getElem? hmsg hlen (by omega), fmt2Byte_footer]

/-- The digest state after the padding is that of the whole padded message (R166). -/
theorem Absorbed.closedDigest (h : Absorbed msg s) : s.closedDigest =
    foldBlocks (msg ++ padding msg.length hmsg) (numBlocks msg.length) := by
  have hfirst : blockOf (msg ++ padding msg.length hmsg) (msg.length / 64) =
      (Memory.ofFn (fmt1Byte s)).bytes :=
    blockOf_eq_bytes fun j hj => by rw [h.padded_eq_fmt1Byte hmsg j hj, read_ofFn_of_lt _ hj]
  have hH : s.H = foldBlocks (msg ++ padding msg.length hmsg) (msg.length / 64) := by
    rw [h.digest, foldBlocks_append (by omega)]
  rw [numBlocks_eq, State.closedDigest, hH, ← hfirst, ← h.fill]
  split
  · rfl
  · have hsecond : blockOf (msg ++ padding msg.length hmsg) (msg.length / 64 + 1) =
        (Memory.ofFn (fmt2Byte s)).bytes :=
      blockOf_eq_bytes fun j hj => by
        rw [padded_eq_fmt2Byte hmsg h.len (by have := h.fill; omega) j hj, read_ofFn_of_lt _ hj]
    rw [← hsecond]
    rfl

end Closing

/-! ## The message script (R164, R165, R166) -/

/-- After `INIT` no byte has been absorbed, whatever the core held before (R155). -/
theorem absorbed_init {s : State} (he : s.err = false) (hwf : s.B.wf) (rest : List HostEvent) :
    Absorbed [] { s with host := rest, H := IV, len := 0, rc := 0, ph := .absorb } where
  ph := rfl
  rc := rfl
  err := he
  wf := hwf
  len := rfl
  digest := rfl
  bytes j hj := absurd hj (Nat.not_lt_zero j)

/-- `FINAL`, and the padding that it starts (R157). -/
theorem Absorbed.steps_final {msg : List Byte} {words : List CommandWord} {s : State}
    (h : Absorbed msg s) (hh : s.host = present (0x002#10 :: words)) :
    ∃ t, steps (1 + if msg.length % 64 ≤ 55 then 66 else 132) s = .next t ∧ t.ph = .done ∧
      t.H = s.closedDigest ∧ t.err = false ∧ t.len = s.len ∧ t.host = present words ∧
      t.rsp = s.rsp := by
  have hstep : step s = .next { s with host := present words, ph := .pad1 } := by
    rw [step_of_command h.decode hh rfl]
    exact exec_final_absorb (s := { s with host := present words }) h.err h.ph
  obtain ⟨t, ht, hdone, hst⟩ := steps_padding (s := { s with host := present words, ph := .pad1 }) rfl
    h.rc (reset_not_mem_present words)
  obtain ⟨n, hhost⟩ := hst.host
  refine ⟨t, h.fill ▸ steps_trans (steps_succ_of_next hstep 0) ht, hdone, hst.digest,
    hst.record.1.trans h.err, hst.len, ?_, hst.rsp⟩
  rw [hhost, iterate_eventsLeft_present]

/-- The view `DIGEST` is a byte of a word of `H` (R36). -/
theorem digestByte_eq_byteOf (h : DigestState) (i : BitVec 4) :
    digestByte h i = byteOf (digestWord h (i.extractLsb' 2 2)) (i.toNat % 4) := by
  apply BitVec.eq_of_toNat_eq
  simp [digestByte, byteOf, BitVec.extractLsb'_toNat]

/-- `DIGEST` is `Ser(H)` (R167). -/
theorem ser_getElem? (h : DigestState) (i : BitVec 4) : (ser h)[i.toNat]? = some (digestByte h i) := by
  rw [digestByte_eq_byteOf]
  obtain ⟨n, hn, rfl⟩ : ∃ n < 16, i = BitVec.ofNat 4 n := ⟨i.toNat, i.isLt, by simp⟩
  interval_cases n <;> rfl

/-- Settles O54: `INIT`, the bytes, `FINAL` and the padding, one run after the other. -/
theorem messageScriptComputesTheDigest : Obligations.MessageScriptComputesTheDigest := by
  intro msg more s hmsg hb hr he hwf hh
  have hmsg : msg.length ≤ maxLen.toNat := hmsg
  have hscript : s.host = .command 0x001#10 ::
      present (msg.map (fun byte => 0b01#2 ++ byte) ++ 0x002#10 :: more) := by
    rw [hh, script, List.cons_append, List.append_assoc, present_cons]
    rfl
  obtain ⟨t, ht, habs, hthost, htrsp⟩ := steps_absorb (absorbed_init he hwf _) hmsg rfl
  obtain ⟨u, hu, hdone, hH, herr, hlen, huhost, hursp⟩ := habs.steps_final hthost
  have hrun := steps_trans (steps_succ_of_next (step_init hb hr he hscript) 0) (steps_trans ht hu)
  have hcount : 2 + msg.length + microStepCount msg.length = 0 + 1 + (msg.length +
      65 * (msg.length / 64) + (1 + if msg.length % 64 ≤ 55 then 66 else 132)) := by
    unfold microStepCount
    omega
  have hstate : md5State msg = some u.H := by
    rw [md5State_of_pad (pad_eq_append_padding hmsg), hH, habs.closedDigest hmsg]
  exact ⟨u, hcount ▸ hrun, by simp [State.runComplete, hdone, herr], hstate,
    ⟨ser u.H, md5_of_state hstate, rfl, ser_getElem? u.H⟩, by rw [hlen, habs.len], huhost,
    hursp.trans htrsp⟩

end Sys2Proof.Machine

/-! # Scope: the output serializer

The proofs of the statements about `44_serializer.md`: `Ser` and the view `DIGEST` (R167), the command
`READ` (R168), and the digest in `DONE` (R169). -/

namespace Sys2Proof.Machine

open Sys2Proof.Statements

/-! ## `DIGEST` and `Ser` (R36, R167) -/

theorem digestWord_eq_getD (h : DigestState) (q : BitVec 2) :
    digestWord h q = [h.h0, h.h1, h.h2, h.h3].getD q.toNat 0 := by
  obtain ⟨n, hn, rfl⟩ : ∃ n < 4, q = BitVec.ofNat 2 n := ⟨q.toNat, q.isLt, by simp⟩
  interval_cases n <;> rfl

/-- The two upper bits of an index are the word, the two lower ones the byte of it (R36, R46). -/
theorem digestByte_toNat (h : DigestState) (i : BitVec 4) : (digestByte h i).toNat =
    ([h.h0, h.h1, h.h2, h.h3].getD (i.toNat / 4) 0).toNat / 2 ^ (8 * (i.toNat % 4)) % 256 := by
  have hword : (i.extractLsb' 2 2).toNat = i.toNat / 4 := extractLsb'_top_toNat (k := 2) (n := 2) rfl i
  rw [digestByte_eq_byteOf, byteOf_toNat, digestWord_eq_getD, hword]

theorem ser_getD (h : DigestState) (i : BitVec 4) (d : Byte) :
    (ser h).getD i.toNat d = digestByte h i := by
  rw [List.getD_eq_getElem?_getD, ser_getElem?, Option.getD_some]

theorem ser_getD_toNat (h : DigestState) {q n : Nat} (hq : q < 4) (hn : n < 4) :
    ((ser h).getD (4 * q + n) 0).toNat =
      ([h.h0, h.h1, h.h2, h.h3].getD q 0).toNat / 2 ^ (8 * n) % 256 := by
  have hi : (BitVec.ofNat 4 (4 * q + n)).toNat = 4 * q + n := Nat.mod_eq_of_lt (by omega)
  have hword : (4 * q + n) / 4 = q := by omega
  have hbyte : (4 * q + n) % 4 = n := by omega
  have hser := digestByte_toNat h (BitVec.ofNat 4 (4 * q + n))
  rwa [← ser_getD h _ 0, hi, hword, hbyte] at hser

theorem bytes32_injective : Function.Injective bytes32 := by
  intro v w h
  obtain ⟨h0, h1, h2, h3⟩ : byteOf v 0 = byteOf w 0 ∧ byteOf v 1 = byteOf w 1 ∧
      byteOf v 2 = byteOf w 2 ∧ byteOf v 3 = byteOf w 3 := by simpa [bytes32] using h
  rw [← le32_byteOf v, h0, h1, h2, h3, le32_byteOf]

theorem exists_bytes32_eq {bs : List Byte} (h : bs.length = 4) : ∃ v, bytes32 v = bs := by
  obtain ⟨b0, b1, b2, b3, rfl⟩ := List.length_eq_four.mp h
  exact ⟨_, bytes32_le32 b0 b1 b2 b3⟩

/-- The four words have their bytes at fixed places, so equal strings have equal words (R167). -/
theorem ser_injective : Function.Injective ser := by
  intro g h e
  obtain ⟨e, e3⟩ := List.append_inj e rfl
  obtain ⟨e, e2⟩ := List.append_inj e rfl
  obtain ⟨e0, e1⟩ := List.append_inj e rfl
  exact (DigestState.mk.injEq ..).mpr ⟨bytes32_injective e0, bytes32_injective e1,
    bytes32_injective e2, bytes32_injective e3⟩

/-- A string of 16 bytes is four groups of four, each the bytes of a word (R167). -/
theorem exists_ser_eq {bs : List Byte} (h : bs.length = 16) : ∃ g, ser g = bs := by
  obtain ⟨h0, e0⟩ := exists_bytes32_eq (bs := bs.take 4) (by simp [h])
  obtain ⟨h1, e1⟩ := exists_bytes32_eq (bs := (bs.drop 4).take 4) (by simp [h])
  obtain ⟨h2, e2⟩ := exists_bytes32_eq (bs := (bs.drop 8).take 4) (by simp [h])
  obtain ⟨h3, e3⟩ := exists_bytes32_eq (bs := bs.drop 12) (by simp [h])
  refine ⟨⟨h0, h1, h2, h3⟩, ?_⟩
  rw [ser, e0, e1, e2, e3, ← List.take_add, ← List.take_add, List.take_append_drop]

/-- Settles O56: `DIGEST` gives the bytes by index, `bytes32` and `le32` the two directions. -/
theorem serializerIsABijection : Obligations.SerializerIsABijection :=
  ⟨fun h => ⟨rfl, fun _ _ hq hn => ser_getD_toNat h hq hn, fun i => (ser_getD h i 0).symm⟩,
    fun _ _ e => ser_injective e, fun _ => exists_ser_eq⟩

/-! ## `READ` on a ready core (R168, R174, R177) -/

section Read

variable {s : State} (idx : BitVec 4)

theorem exec_read_done (he : s.err = false) (hp : s.ph = .done) :
    exec (.read idx) s = .next (s.respond (digestByte s.H idx)) := by
  have hb : s.busy = false := congrArg busyPhase hp
  rw [exec_read, command_of_ready hb]
  simp [he, hp]

theorem exec_read_outside_done (hb : s.busy = false) (he : s.err = false) (hp : s.ph ≠ .done) :
    exec (.read idx) s = .next (s.raise .phaseViolation).respondFree := by
  rw [exec_read, command_of_ready hb]
  simp [he, hp]

theorem exec_read_frozen (hb : s.busy = false) (he : s.err = true) :
    exec (.read idx) s = .next s.respondFree := by
  rw [exec_read, command_of_ready hb, if_pos he]

end Read

theorem not_busy_of_idle_or_absorb {s : State} (h : s.ph = .idle ∨ s.ph = .absorb) :
    s.busy = false ∧ s.ph ≠ .done := by
  rcases h with h | h <;> simp [State.busy, busyPhase, h]

/-- Settles O18, case by case of `READ`. -/
theorem readAnswersADigestByte : Obligations.ReadAnswersADigestByte := by
  refine fun s idx => ⟨fun he hp => ?done, fun he hp => ?faults, fun he hb => ?frozen⟩
  case done =>
    exact ⟨_, _, exec_read_done idx he hp, rfl, digestByte_toNat s.H idx, rfl, rfl, fun _ => rfl, rfl,
      rfl, rfl, ⟨rfl, rfl⟩, rfl, rfl⟩
  case faults =>
    obtain ⟨hb, hp⟩ := not_busy_of_idle_or_absorb hp
    exact ⟨_, _, exec_read_outside_done idx hb he hp, rfl, rfl, rfl, rfl, rfl, fun _ => rfl, rfl, rfl,
      rfl, rfl⟩
  case frozen =>
    exact ⟨_, _, exec_read_frozen idx hb he, rfl,
      ⟨rfl, rfl, fun _ => rfl, rfl, rfl, rfl, rfl, rfl⟩, rfl⟩

/-! ## The digest in `DONE` (R169) -/

/-- Everything but the fault record and the model's own fields is as before. -/
def SameData (s t : State) : Prop :=
  t.H = s.H ∧ t.w = s.w ∧ SameBytes s t ∧ t.len = s.len ∧ t.ph = s.ph ∧ t.rc = s.rc

/-- In `DONE` no command but `INIT` moves data: `DATA` and `FINAL` fault there, `STATUS` and `READ` answer
(R174). -/
theorem exec_command_in_done {i : Instr} {s t : State} (hi : HostCommand i) (hne : i ≠ .init)
    (hp : s.ph = .done) (h : exec i s = .next t) : SameData s t := by
  have hpa : s.ph ≠ .absorb := by simp [hp]
  rcases hi with rfl | rfl | rfl | ⟨byte, rfl⟩ | ⟨idx, rfl⟩
  · exact absurd rfl hne
  · rcases exec_final_next h with rfl | ⟨-, -, ⟨-, rfl⟩ | ⟨ha, -⟩⟩
    · exact ⟨rfl, rfl, fun _ => rfl, rfl, rfl, rfl⟩
    · exact ⟨rfl, rfl, fun _ => rfl, rfl, rfl, rfl⟩
    · exact absurd ha hpa
  · rcases exec_status_next h with rfl | ⟨-, rfl⟩ <;> exact ⟨rfl, rfl, fun _ => rfl, rfl, rfl, rfl⟩
  · rcases exec_data_next h with rfl | ⟨-, -, ⟨-, rfl⟩ | ⟨ha, -⟩ | ⟨ha, -⟩⟩
    · exact ⟨rfl, rfl, fun _ => rfl, rfl, rfl, rfl⟩
    · exact ⟨rfl, rfl, fun _ => rfl, rfl, rfl, rfl⟩
    · exact absurd ha hpa
    · exact absurd ha hpa
  · rcases exec_read_next h with rfl | ⟨-, ⟨-, rfl⟩ | ⟨-, -, rfl⟩ | ⟨-, -, rfl⟩⟩ <;>
      exact ⟨rfl, rfl, fun _ => rfl, rfl, rfl, rfl⟩

/-- Everything a step without a reset does in `DONE`: it takes `INIT`, or moves no data. -/
theorem step_in_done {s t : State} (hp : s.ph = .done) (hq : s.noReset = true) (h : step s = .next t) :
    (s.err = false ∧ t.ph = .absorb ∧ ∃ rest, s.host = .command 0x001#10 :: rest) ∨
      SameData s t := by
  have hb : s.busy = false := congrArg busyPhase hp
  cases step_next h with
  | resets rest asked => simp [State.noReset, asked] at hq
  | micro i quiet selected runs =>
    exact absurd (hb.symm.trans (busy_of_selected selected)) Bool.false_ne_true
  | accepts cmd i rest presented ready legal runs =>
    by_cases hi : i = .init
    · subst hi
      obtain rfl := eq_of_decodeCommand_init legal
      rcases exec_init_next runs with rfl | ⟨-, he, rfl⟩
      · exact .inr ⟨rfl, rfl, fun _ => rfl, rfl, rfl, rfl⟩
      · exact .inl ⟨he, rfl, rest, presented⟩
    · exact .inr (exec_command_in_done (s := { s with host := rest })
        (hostCommand_of_decodeCommand legal) hi hp runs)
  | illegal cmd rest presented ready reserved => exact .inr (by simp [SameData, SameBytes])
  | idles quiet ready => exact .inr (by simp [SameData, SameBytes])

/-- Settles O49: `DONE` is not busy, and the digest bytes are a function of `H`. -/
theorem digestIsStableInDone : Obligations.DigestIsStableInDone := by
  intro s t hp
  refine ⟨fun i hd => ?selected, fun hq h => (step_in_done hp hq h).imp_right ?stays⟩
  case selected =>
    have hb := busy_of_selected hd
    simp [hp, busyPhase] at hb
  case stays =>
    rintro ⟨hH, hw, hB, hlen, hph, hrc⟩
    exact ⟨hH, fun _ => by rw [hH], hw, hB, hlen, hph.trans hp, hrc⟩

end Sys2Proof.Machine

/-! # Scope: the exceptions

The proofs of the statements about `60_exceptions.md`: what raises each fault (R173, R174, R175), what a
fault writes (R176), the frozen core (R177, R179), what never faults (R180), and waiting (R184). -/

namespace Sys2Proof.Machine

open Sys2Proof.Statements

/-! ## Which command faults in which phase (R174, R175) -/

section Phases

variable {s : State} (hb : s.busy = false)
include hb

theorem ne_absorb_iff_of_ready : s.ph ≠ .absorb ↔ s.ph = .idle ∨ s.ph = .done := by
  rcases (not_busy_iff s.ph).mp hb with hp | hp | hp <;> simp [hp]

theorem ne_done_iff_of_ready : s.ph ≠ .done ↔ s.ph = .idle ∨ s.ph = .absorb := by
  rcases (not_busy_iff s.ph).mp hb with hp | hp | hp <;> simp [hp]

end Phases

/-- Settles O19: a command the table allows has its own effect, another raises `PhaseViolation`, and `DATA`
at the limit `LengthOverflow`. -/
theorem phaseViolationsFollowTheTable : Obligations.PhaseViolationsFollowTheTable := by
  intro s i hb he hz hi
  rw [← ne_absorb_iff_of_ready hb, ← ne_done_iff_of_ready hb, ← len_eq_maxLen_iff]
  rcases hi with rfl | rfl | rfl | ⟨byte, rfl⟩ | ⟨idx, rfl⟩
  · exact ⟨_, exec_init_sound hb he, by simp [he, hz]⟩
  · by_cases hp : s.ph = .absorb
    · exact ⟨_, exec_final_absorb he hp, by simp [he, hz, hp]⟩
    · exact ⟨_, exec_outside_absorb (.inl rfl) hb he hp, by simp [causeCode, hp]⟩
  · exact ⟨_, (exec_status s).trans (command_of_ready hb _), by simp [he, hz]⟩
  · by_cases hp : s.ph = .absorb
    · by_cases hl : s.len = maxLen
      · exact ⟨_, exec_data_at_limit he hp hl byte, by simp [causeCode, hp, hl]⟩
      · exact ⟨_, exec_data_absorb he hp hl byte, by simp [he, hz, hp, hl]⟩
    · exact ⟨_, exec_outside_absorb (.inr ⟨byte, rfl⟩) hb he hp, by simp [causeCode, hp]⟩
  · by_cases hp : s.ph = .done
    · exact ⟨_, exec_read_done idx he hp, by simp [he, hz, hp]⟩
    · exact ⟨_, exec_read_outside_done idx hb he hp, by simp [causeCode, hp]⟩

/-- Settles O20: the limit is the one length whose successor has no bit length of 64 bits. -/
theorem lengthOverflowIsRefused : Obligations.LengthOverflowIsRefused := by
  intro s byte he hp
  refine ⟨fun hl => ⟨by omega, ?atLimit⟩, fun hl => ⟨?fits, ?below⟩⟩
  case atLimit =>
    exact ⟨_, exec_data_at_limit he hp (len_eq_maxLen_iff.mpr hl) byte, rfl, rfl, rfl, rfl, fun _ => rfl,
      rfl, rfl, rfl, rfl, rfl, rfl⟩
  case fits =>
    have hlt := s.len.isLt
    omega
  case below =>
    have hroom : s.len ≠ maxLen := mt len_eq_maxLen_iff.mp hl
    refine ⟨_, exec_data_absorb he hp hroom byte, (acceptByte_err s byte).trans he,
      acceptByte_ecode s byte, ?_⟩
    rw [bitlen_toNat, acceptByte_len, len_add_one_toNat hroom]

/-! ## Reserved words and waiting (R173, R184) -/

/-- Settles O39: the listed words are the reserved ones, and the core is not frozen. -/
theorem reservedWordRaisesIllegalCommand : Obligations.ReservedWordRaisesIllegalCommand := by
  intro s cmd rest he hb hr hh hcmd
  have hd := (decodeSequencer_waits_iff s.ph s.rc).mpr ⟨hb, hr⟩
  have hreserved := (reservedWordsAreTheListedRanges cmd).mpr hcmd
  rw [step_of_reserved hd hh hreserved, illegalCommand_of_not_err (s := { s with host := rest }) he]
  rfl

/-- Settles O41: without a command a ready core only lets the host wait. -/
theorem idleCoreKeepsItsState : Obligations.IdleCoreKeepsItsState := by
  intro s hb hr
  have hd := (decodeSequencer_waits_iff s.ph s.rc).mpr ⟨hb, hr⟩
  refine ⟨fun hh => ?_, fun rest hh => ?_⟩ <;>
    rw [step_of_no_command (by simp [State.noReset, hh]) hd (by simp [hh]), State.hostWaits, hh]

/-! ## What never faults (R180) -/

/-- Only `DATA`, `FINAL` and `READ` can write the fault record, and these are host commands. -/
theorem exec_microStep_record {i : Instr} {s t : State} (hi : ¬ HostCommand i)
    (h : exec i s = .next t) : SameRecord s t := by
  simp only [HostCommand, not_or, not_exists] at hi
  obtain ⟨-, hfinal, -, hdata, hread⟩ := hi
  obtain ⟨-, -, -, -, -, -, hrecord, -⟩ := digestStateIsWrittenOnlyByInitAndAcc i s t h
  exact hrecord hdata hfinal hread

/-- Settles O24: a micro-step keeps the record, and no `Fault` exists for it to answer (log entry 10). -/
theorem datapathRaisesNothing : Obligations.DatapathRaisesNothing := fun _ _ hi =>
  ⟨fun _ h => exec_microStep_record hi h, (nomatch ·)⟩

/-! ## What a fault writes (R176) -/

/-- `t` is `s` with a fault recorded; a faulting `READ` has answered as well. -/
def FaultOf (s t : State) : Prop :=
  ∃ c, t = s.raise c ∨ t = (s.raise c).respondFree

/-- An instruction that takes `ERR` from 0 to 1 is a command on a ready core, and raises a fault. -/
theorem effect_raises {s t : State} (h : Effect s t) (he : s.err = false) (ht : t.err = true) :
    s.busy = false ∧ FaultOf s t := by
  have hkept (hst : t.err = s.err) : s.busy = false ∧ FaultOf s t := by simp [hst, he] at ht
  cases h with
  | waits busy => exact hkept rfl
  | ignored ready frozen => exact hkept rfl
  | frozenRead ready frozen => exact hkept rfl
  | answers ready b => exact hkept rfl
  | faults ready sound c => exact ⟨ready, c, .inl rfl⟩
  | readFaults ready sound => exact ⟨ready, _, .inr rfl⟩
  | starts ready sound => exact hkept rfl
  | accepts sound absorbing room byte => exact hkept (acceptByte_err s byte)
  | ends sound absorbing => exact hkept rfl
  | formats1 sel zero => exact hkept rfl
  | formats2 sel zero => exact hkept rfl
  | rounds sel n small count => exact hkept rfl
  | accumulates sel count => exact hkept rfl

/-- A step that takes `ERR` from 0 to 1 is that of a ready core, and raises a fault after it took the
host's event. -/
theorem step_raises {s t : State} (h : step s = .next t) (he : s.err = false) (ht : t.err = true) :
    s.busy = false ∧ ∃ events, FaultOf { s with host := events } t := by
  cases step_next h with
  | resets rest asked => cases ht
  | micro i quiet selected runs =>
    have hrecord := exec_microStep_record (not_hostCommand_of_decodeSequencer selected) runs
    simp [hrecord.1, he] at ht
  | accepts cmd i rest presented ready legal runs =>
    obtain ⟨hb, hf⟩ := effect_raises (exec_effect runs) he ht
    exact ⟨hb, rest, hf⟩
  | illegal cmd rest presented ready reserved =>
    obtain ⟨hb, -⟩ := (decodeSequencer_waits_iff _ _).mp ready
    exact ⟨hb, rest, _, .inl (illegalCommand_of_not_err (s := { s with host := rest }) he)⟩
  | idles quiet ready => simp [he] at ht

theorem causeCode_cases (c : Cause) : causeCode c = 1#3 ∨ causeCode c = 2#3 ∨ causeCode c = 3#3 := by
  cases c <;> simp [causeCode]

/-- Settles O23: raising writes the record, and a faulting `READ` delivers one byte. -/
theorem faultsLeaveOnlyTheRecord : Obligations.FaultsLeaveOnlyTheRecord := by
  intro s t h he ht
  obtain ⟨hb, events, c, rfl | rfl⟩ := step_raises h he ht
  · exact ⟨rfl, rfl, fun _ => rfl, rfl, rfl, rfl, causeCode_cases c, hb, .inl rfl⟩
  · exact ⟨rfl, rfl, fun _ => rfl, rfl, rfl, rfl, causeCode_cases c, hb, .inr ⟨_, rfl⟩⟩

/-! ## The frozen core (R177, R179) -/

/-- Settles O50: a frozen core is ready, so it takes no micro-step, and its commands can at most answer. -/
theorem faultRecordIsSticky : Obligations.FaultRecordIsSticky := by
  intro s t hinv he hq h
  have hb := hinv.err_ready he
  cases step_next h with
  | resets rest asked => simp [State.noReset, asked] at hq
  | micro i quiet selected runs =>
    exact absurd (hb.symm.trans (busy_of_selected selected)) Bool.false_ne_true
  | accepts cmd i rest presented ready legal runs =>
    exact effect_frozen (s := { s with host := rest }) (exec_effect runs) hb he
  | illegal cmd rest presented ready reserved =>
    rw [illegalCommand_of_err (s := { s with host := rest }) he]
    exact ⟨rfl, rfl, fun _ => rfl, rfl, rfl, rfl, rfl, rfl⟩
  | idles quiet ready => simp [SameRegisters, SameBytes, SameRecord]

theorem runComplete_of_err {s : State} (h : s.err = true) : s.runComplete = false := by
  simp [State.runComplete, h]

/-- Settles O21: one clause a command; that a frozen core is never busy is a clause of the invariant. -/
theorem frozenCoreIgnoresCommands : Obligations.FrozenCoreIgnoresCommands := by
  refine ⟨fun s he hb => ?_, fun s t hinv h he => ?ready⟩
  case ready => exact (ready_iff t).mpr ((stepKeepsTheInvariant s t hinv h).err_ready he)
  have hready := (ready_iff s).mpr hb
  refine ⟨exec_frozen (.inl rfl) hb he, exec_frozen (.inr (.inl rfl)) hb he,
    fun byte => exec_frozen (.inr (.inr ⟨byte, rfl⟩)) hb he, fun idx => ?read, ?status,
    fun cmd rest hh hr hcmd => ?reserved, hready, runComplete_of_err he⟩
  case read =>
    exact ⟨_, _, exec_read_frozen idx hb he, rfl, ⟨rfl, rfl, fun _ => rfl, rfl, rfl, rfl, rfl, rfl⟩, rfl,
      hready, runComplete_of_err he⟩
  case status =>
    exact ⟨_, (exec_status s).trans (command_of_ready hb _), rfl,
      ⟨rfl, rfl, fun _ => rfl, rfl, rfl, rfl, rfl, rfl⟩, hready⟩
  case reserved =>
    have hd := (decodeSequencer_waits_iff s.ph s.rc).mpr ⟨hb, hr⟩
    rw [step_of_reserved hd hh hcmd, illegalCommand_of_err (s := { s with host := rest }) he]

end Sys2Proof.Machine

/-! # Scope: reset and progress

The proofs of the statements about `70_reset_and_hazards.md`: what a requested reset does (R187, R188), the
state right after reset, and that no state of the invariant is stuck (R197). -/

namespace Sys2Proof.Machine

/-- Settles O46: only an unreachable sequencer state is refused, and the invariant leaves those out. -/
theorem reachableStatesAlwaysStep : Obligations.ReachableStatesAlwaysStep := fun s h =>
  (step_cases s).resolve_right fun ⟨hd, _⟩ => h.reachable hd

/-- Without a recorded fault the byte is the number of the phase but for `DV`, and `IDLE` is 0 (R32). -/
theorem statusByte_of_idle {s : State} (hp : s.ph = .idle) (he : s.err = false) (hc : s.ecode = 0#3) :
    s.statusByte = 0x00#8 := by
  simp [State.statusByte, State.dv, hp, he, hc, phaseCode]

/-- Settles O40: a reset comes before the sequencer's decode, so the state it happens in does not matter. -/
theorem resetClearsTheControlState : Obligations.ResetClearsTheControlState := by
  intro s rest hreset
  exact ⟨_, step_of_reset hreset, rfl, rfl, rfl, rfl, statusByte_of_idle rfl rfl rfl, rfl, rfl, rfl,
    (State.Inv.resetEvent _).mem_wf, rfl, rfl⟩

/-- Settles O44: the core is ready at reset, with no fault recorded and an empty buffer. -/
theorem resetStateMeetsTheInvariant : Obligations.ResetStateMeetsTheInvariant :=
  ⟨.of_ready rfl rfl (iff_of_true rfl rfl) (Nat.zero_le 3) wf_reset, rfl, rfl, rfl, rfl,
    statusByte_of_idle rfl rfl rfl, rfl⟩

end Sys2Proof.Machine

/-! # Scope: encoder against decoder, and where micro-steps happen

The proofs of the statements that decoder and encoder undo each other (R55 to R58, R61, R64), that fixed
words read as the spec writes them, and that a micro-step happens only where the sequencer selects it
(R64, R159). -/

namespace Sys2Proof.Machine

open Sys2Proof.Statements

/-! ## Decoding what the encoder writes -/

theorem decodeCommand_readIndex (idx : BitVec 4) :
    decodeCommand (0b100000#6 ++ idx) = .instr (.read idx) := by
  have hn : (0b100000#6 ++ idx : CommandWord).toNat = 512 + idx.toNat := toNat_append_add 32#6 idx
  have hlt := idx.isLt
  have hlow : (0b100000#6 ++ idx : CommandWord).toNat % 16 = idx.toNat := by omega
  rw [decodeCommand_read (by omega), hlow, BitVec.ofNat_toNat, BitVec.setWidth_eq]

/-- In a compression phase `RC = n` selects round `n` (R64). -/
theorem decodeSequencer_roundInstr {p : Phase} (hc : compressing p = true) {n : Nat} (h : n < 64) :
    decodeSequencer (phaseCode p) (BitVec.ofNat 7 n) = .instr (roundInstr n) := by
  have hrc : (BitVec.ofNat 7 n).toNat = n := Nat.mod_eq_of_lt (by omega)
  rw [decodeSequencer_compressing hc, decodeRoundCounter_lt (by omega), hrc]

/-- The decoder undoes the encoder on every instruction, for no operand is out of range. -/
theorem decode_encode (i : Instr) : decode (encode i) = .instr i := by
  rcases instr_cases i with rfl | rfl | rfl | ⟨byte, rfl⟩ | ⟨idx, rfl⟩ | rfl | rfl | ⟨n, hn, rfl⟩ | rfl
  · rfl
  · rfl
  · rfl
  · exact decodeCommand_dataByte byte
  · exact decodeCommand_readIndex idx
  · rfl
  · rfl
  · rw [encode_roundInstr hn]
    exact decodeSequencer_roundInstr (p := .compD) rfl hn
  · rfl

/-- Settles O4, from the round trip of every instruction. -/
theorem decodeOfEncodeIsTheInstruction : Obligations.DecodeOfEncodeIsTheInstruction := fun i _ =>
  decode_encode i

/-! ## Encoding what the decoder reads -/

/-- The number of `PH` that the encoder writes for a micro-step of the phase `p`: 4 for each of the three
compression phases (log entry 11). -/
theorem phaseCode_written {p : Phase} (hc : compressing p = true) :
    (if phaseCode p = 5#3 ∨ phaseCode p = 6#3 then 4#3 else phaseCode p) = 4#3 := by
  rcases (compressing_iff p).mp hc with rfl | rfl | rfl <;> rfl

/-- Every value of the 3 bits of `PH` is the number of a phase (R27). -/
theorem phaseCode_phaseOfCode (ph : BitVec 3) : phaseCode (phaseOfCode ph) = ph := by
  revert ph
  decide

/-- A micro-step is selected by the word that the encoder writes for it, but for the compression phase. -/
theorem encode_of_decodeSequencer {p : Phase} {rc : BitVec 7} {i : Instr}
    (h : decodeSequencer (phaseCode p) rc = .instr i) : encode i =
      .sequencer (if phaseCode p = 5#3 ∨ phaseCode p = 6#3 then 4#3 else phaseCode p) rc := by
  rcases decodeSequencer_cases p rc with
    ⟨-, -, e⟩ | ⟨rfl, rfl, e⟩ | ⟨rfl, rfl, e⟩ | ⟨hc, hn, e⟩ | ⟨hc, rfl, e⟩ | e <;> cases e.symm.trans h
  · rfl
  · rfl
  · rw [encode_roundInstr hn, phaseCode_written hc, BitVec.ofNat_toNat, BitVec.setWidth_eq]
  · rw [phaseCode_written hc, encode]

/-- Settles O5: the command words by `encode_of_decodeCommand`, the sequencer's states phase by phase. -/
theorem legalWordsEncodeBack : Obligations.LegalWordsEncodeBack := by
  refine ⟨fun _ _ => encode_of_decodeCommand, fun ph rc i h => ?_⟩
  rw [← phaseCode_phaseOfCode ph] at h ⊢
  exact encode_of_decodeSequencer h

/-! ## Words written out bit by bit -/

/-- Settles O6: a word that the encoder writes by the round trip, the others by the rows of the decoders. -/
theorem writtenWordsReadAsTheSpecSays : Obligations.WrittenWordsReadAsTheSpecSays :=
  ⟨decode_encode .init, decode_encode .final, decode_encode .status, decode_encode (.data 0x61#8),
    decode_encode (.read 15#4), (decodeCommand_reserved_iff _).mpr (by decide),
    (decodeCommand_reserved_iff _).mpr (by decide), decode_encode .fmt1, decode_encode .fmt2,
    decodeSequencer_roundInstr (p := .compP1) (n := 17) rfl (by decide),
    decodeSequencer_roundInstr (p := .compP2) (n := 63) rfl (by decide), decode_encode .acc,
    (decodeSequencer_unreachable_iff .compD _).mpr (by decide)⟩

/-! ## Where a micro-step happens (R64, R159) -/

/-- What is no host command is one of the micro-steps of R64. -/
theorem microStep_cases {i : Instr} (hi : ¬ HostCommand i) :
    i = .fmt1 ∨ i = .fmt2 ∨ (∃ n, n < 64 ∧ i = roundInstr n) ∨ i = .acc := by
  refine Or.resolve_left (a := HostCommand i) ?_ hi
  simpa only [HostCommand, or_assoc] using instr_cases i

/-- A micro-step is refused unless what its selector implies holds. -/
theorem microStep_refused_unless {b : Bool} {P : Prop} (h : b = true → P) (t : State) :
    P ∨ microStep b t = .refused .microStepNotSelected := by
  cases b with
  | true => exact .inl (h rfl)
  | false => exact .inr (microStep_not_selected rfl t)

/-- A micro-step that the sequencer does not select is refused (log entry 8). -/
theorem selected_or_refused {i : Instr} (hi : ¬ HostCommand i) (s : State) :
    decodeSequencer (phaseCode s.ph) s.rc = .instr i ∨
      exec i s = .refused .microStepNotSelected := by
  rcases microStep_cases hi with rfl | rfl | ⟨n, hn, rfl⟩ | rfl
  · refine microStep_refused_unless (fun hsel => ?_) _
    obtain ⟨hp, hr⟩ := of_decide_eq_true hsel
    rw [hp, hr, decodeSequencer_pad1]
  · refine microStep_refused_unless (fun hsel => ?_) _
    obtain ⟨hp, hr⟩ := of_decide_eq_true hsel
    rw [hp, hr, decodeSequencer_pad2]
  · rw [exec_roundInstr hn]
    refine microStep_refused_unless (fun hsel => ?_) _
    obtain ⟨hc, hr⟩ := Bool.and_eq_true_iff.mp hsel
    rw [of_decide_eq_true hr, decodeSequencer_roundInstr hc hn]
  · refine microStep_refused_unless (fun hsel => ?_) _
    obtain ⟨hc, hr⟩ := Bool.and_eq_true_iff.mp hsel
    rw [of_decide_eq_true hr, decodeSequencer_compressing hc, decodeRoundCounter_64]

/-- Settles O37: a selected micro-step has a next state, another one is refused and so has none. -/
theorem microStepsHappenOnlyWhereSelected : Obligations.MicroStepsHappenOnlyWhereSelected := by
  intro s i hi
  have hrefused := (selected_or_refused hi s).resolve_left
  refine ⟨⟨fun ⟨t, ht⟩ => ?_, exec_selected_has_next⟩, hrefused⟩
  by_contra hn
  cases ht.symm.trans (hrefused hn)

end Sys2Proof.Machine
